-- ==== Sys2Proof/Word.lean ====
section
/-!
DEFINITION. The engine's data widths (spec/00_scope.md R11): a byte is 8 bits, a half word 32 bits, a word 64 bits.
Core `BitVec` arithmetic is the wrapping arithmetic of R13: `+` and `*` are addition and multiplication modulo
2^64 (or 2^32), `^^^`, `|||`, `&&&` the bitwise operations, `>>>` and `<<<` the logical shifts.
-/

namespace Sys2Proof

/-- An 8-bit byte of buffer memory. -/
abbrev Byte := BitVec 8

/-- A 32-bit half word. -/
abbrev Half := BitVec 32

/-- A 64-bit word: a register, a seed, a digest word. -/
abbrev Word := BitVec 64

end Sys2Proof
end

