-- ==== Sys2Proof/Syntax.lean ====
section
/-!
DEFINITION. The commands of CHME-1: one constructor per row of spec/opcode_table.json (spec/30_encoding.md R68).
A command has no operand field but `SH` (R66, R74): its operands are in fixed registers.
-/

namespace Sys2Proof

/-- A command. The doc of each constructor gives its assembler mnemonic and the rule of its meaning. -/
inductive Instr where
  /-- `H32`, R149. -/
  | h32
  /-- `H64`, R143. -/
  | h64
  /-- `H64S`, R145. -/
  | h64s
  /-- `H64SS`, R147. -/
  | h64ss
  /-- `H128`, R160. -/
  | h128
  /-- `H128S`, R162. -/
  | h128s
  /-- `H256`, R170. -/
  | h256
  /-- `H128C`, R182. -/
  | h128c
  /-- `CAPQ`, R185. -/
  | capq
  /-- `ROT64I #sh`, R99. -/
  | rot64i (sh : BitVec 6)
  /-- `ROT64R`, R100. -/
  | rot64r
  /-- `ROT32I #sh`, R101; legal only for `sh` up to 31 (`Instr.wellFormed`). -/
  | rot32i (sh : BitVec 6)
  /-- `ROT32R`, R102. -/
  | rot32r
  /-- `SHMIX`, R103. -/
  | shmix
  /-- `FOLD`, R104. -/
  | fold
  /-- `FOLDM`, R105. -/
  | foldm
  /-- `WMIX`, R111. -/
  | wmix
  /-- `FETCH32`, R107. -/
  | fetch32
  /-- `FETCH64`, R109. -/
  | fetch64
  /-- `MUR32`, R113. -/
  | mur32
  /-- `FMIX32`, R115. -/
  | fmix32
  /-- `CRC64`, R117. -/
  | crc64
  deriving DecidableEq, Repr

end Sys2Proof
end

