-- ==== Sys2Proof/WellFormed.lean ====
section
/-!
DEFINITION. Which commands exist (spec/30_encoding.md R67, R70): every constructor, but that `ROT32I` requires
`SH <= 31`. `SH` of `ROT64I` may be anything its 6 bits hold; no other command has an operand field.
-/

namespace Sys2Proof

/-- The command can be written in a legal command word. -/
def Instr.wellFormed : Instr → Bool
  | .rot32i sh => sh.toNat ≤ 31
  | .rot64i _ => true
  | .h32 | .h64 | .h64s | .h64ss | .h128 | .h128s | .h256 | .h128c | .capq => true
  | .rot64r | .rot32r | .shmix | .fold | .foldm | .wmix => true
  | .fetch32 | .fetch64 | .mur32 | .fmix32 | .crc64 => true

end Sys2Proof
end

