-- ==== Sys2Proof/Decode.lean ====
section
/-!
DEFINITION. The command word (spec/30_encoding.md R66 to R71): the decoder from the 64-bit value written to CMD,
total and rejecting by name, and the encoder.
-/

namespace Sys2Proof

/-- Why a value written to CMD is not a legal command word (R70). Every one of them ends the command with
IllegalCommand (spec/60_exceptions.md R199). -/
inductive DecodeError where
  /-- Bits 63:32 are not all 0 (R66; spec/10_state.md R26). -/
  | highHalf
  /-- Bits 31:14 are not all 0 (R66). -/
  | reservedBits
  /-- `OPC` is not in the opcode map of R68. -/
  | unknownOpcode (opc : BitVec 8)
  /-- `SH` is not 0 in a command other than ROT64I and ROT32I (R66). -/
  | immediateNotZero (opc : BitVec 8)
  /-- `SH >= 32` in ROT32I (R67). -/
  | rotateAmount (sh : BitVec 6)
  deriving DecidableEq, Repr

/-- The outcome of decoding a value written to CMD. -/
inductive Decoded where
  /-- A legal command word. -/
  | command (i : Instr)
  /-- An illegal one, with the reason. -/
  | illegal (e : DecodeError)
  deriving DecidableEq, Repr

/-- `OPC`, bits 7:0 (R66). -/
def opcField (w : Word) : BitVec 8 := w.extractLsb' 0 8

/-- `SH`, bits 13:8 (R66). -/
def shField (w : Word) : BitVec 6 := w.extractLsb' 8 6

/-- Bits 31:14, which must be 0 (R66). -/
def zeroField (w : Word) : BitVec 18 := w.extractLsb' 14 18

/-- Bits 63:32 of the written value, which must be 0 (R26, R66). -/
def highField (w : Word) : BitVec 32 := w.extractLsb' 32 32

/-- A command without an immediate: `SH` must be 0 (R66). -/
def decodePlain (i : Instr) (w : Word) : Decoded :=
  if shField w = 0 then .command i else .illegal (.immediateNotZero (opcField w))

/-- ROT32I requires `SH <= 31` (R67). -/
def decodeRot32i (w : Word) : Decoded :=
  if (shField w).toNat ≤ 31 then .command (.rot32i (shField w)) else .illegal (.rotateAmount (shField w))

/-- The opcode map of R68. -/
def decodeOpc (w : Word) : Decoded :=
  match (opcField w).toNat with
  | 0x10 => decodePlain .h32 w
  | 0x11 => decodePlain .h64 w
  | 0x12 => decodePlain .h64s w
  | 0x13 => decodePlain .h64ss w
  | 0x14 => decodePlain .h128 w
  | 0x15 => decodePlain .h128s w
  | 0x16 => decodePlain .h256 w
  | 0x17 => decodePlain .h128c w
  | 0x18 => decodePlain .capq w
  | 0x20 => .command (.rot64i (shField w))
  | 0x21 => decodePlain .rot64r w
  | 0x22 => decodeRot32i w
  | 0x23 => decodePlain .rot32r w
  | 0x24 => decodePlain .shmix w
  | 0x25 => decodePlain .fold w
  | 0x26 => decodePlain .foldm w
  | 0x27 => decodePlain .wmix w
  | 0x28 => decodePlain .fetch32 w
  | 0x29 => decodePlain .fetch64 w
  | 0x2A => decodePlain .mur32 w
  | 0x2B => decodePlain .fmix32 w
  | 0x2C => decodePlain .crc64 w
  | _ => .illegal (.unknownOpcode (opcField w))

/-- The decoder: what the 64-bit value written to CMD says (R69, R70). -/
def decode (w : Word) : Decoded :=
  if highField w ≠ 0 then .illegal .highHalf
  else if zeroField w ≠ 0 then .illegal .reservedBits
  else decodeOpc w

/-- The opcode of a command (R68). -/
def opcode : Instr → BitVec 8
  | .h32 => 0x10
  | .h64 => 0x11
  | .h64s => 0x12
  | .h64ss => 0x13
  | .h128 => 0x14
  | .h128s => 0x15
  | .h256 => 0x16
  | .h128c => 0x17
  | .capq => 0x18
  | .rot64i _ => 0x20
  | .rot64r => 0x21
  | .rot32i _ => 0x22
  | .rot32r => 0x23
  | .shmix => 0x24
  | .fold => 0x25
  | .foldm => 0x26
  | .wmix => 0x27
  | .fetch32 => 0x28
  | .fetch64 => 0x29
  | .mur32 => 0x2A
  | .fmix32 => 0x2B
  | .crc64 => 0x2C

/-- The immediate of a command: 0 where it has none (R66). -/
def immediate : Instr → BitVec 6
  | .rot64i sh => sh
  | .rot32i sh => sh
  | .h32 | .h64 | .h64s | .h64ss | .h128 | .h128s | .h256 | .h128c | .capq => 0
  | .rot64r | .rot32r | .shmix | .fold | .foldm | .wmix => 0
  | .fetch32 | .fetch64 | .mur32 | .fmix32 | .crc64 => 0

/-- The 32-bit command word: bits 31:14 zero, then `SH`, then `OPC` (R66). -/
def encode (i : Instr) : BitVec 32 := (0 : BitVec 18) ++ immediate i ++ opcode i

/-- The 64-bit value a host writes to CMD for a command: the command word zero-extended (R26, R72). -/
def hostValue (i : Instr) : Word := (encode i).setWidth 64

/-- The value of an instruction given as a number: its low `nbits` bits, every higher bit 0. A command is ONE
32-bit word carried by a 64-bit host write, so no byte order enters (R58, R71). -/
def tableValue (nbits w : Nat) : Word := BitVec.ofNat 64 (w % 2 ^ nbits)

/-- What the decoder reads from an opcode-table word of `nbits` bits (log 14). -/
def decodeTableWord (nbits w : Nat) : Option Instr :=
  match decode (tableValue nbits w) with
  | .command i => some i
  | .illegal _ => none

end Sys2Proof
end

