-- ==== Sys2Proof/Config.lean ====
section
/-!
DEFINITION. The implementation parameters of spec/00_scope.md R6 to R10 and spec/20_memory.md R56, as plain data,
and the strap inputs of R8. `Config.standard` holds the defaults of R6, R7, R9, R10. Log entries 1, 3 and 7.
-/

namespace Sys2Proof

/-- The four capability straps (R8), one bit each, sampled at reset only (spec/70_reset_and_hazards.md R226). -/
structure Straps where
  /-- `HWCRC_PROBE`: the platform's probe found the hardware CRC instruction. -/
  hwcrcProbe : Bool
  /-- `CAP_OVR_EN`: the override replaces the probe result. -/
  capOvrEn : Bool
  /-- `CAP_OVR_VAL`: what the override says. -/
  capOvrVal : Bool
  /-- `SWFB_EN`: a software fallback for the CRC step is configured. -/
  swfbEn : Bool
  deriving DecidableEq, Repr

/-- Straps of `State.reset`. DESIGN CHOICE (log 3, unsafe): R8 implies no default; these are the straps under
which the vectors of spec/95_test_vectors.md are given. -/
def Straps.standard : Straps :=
  { hwcrcProbe := true, capOvrEn := false, capOvrVal := false, swfbEn := true }

/-- The parameters fixed for one machine. They stand in `State` as data that no step changes, so that a statement
over all states is a statement over all parameter values (log 1). -/
structure Config where
  /-- `K0` (R6). -/
  k0 : Word
  /-- `K1` (R6). -/
  k1 : Word
  /-- `K2` (R6). -/
  k2 : Word
  /-- `KMUL` (R6). -/
  kmul : Word
  /-- `C1` (R6). -/
  c1 : Half
  /-- `C2` (R6). -/
  c2 : Half
  /-- `C3` (R6). -/
  c3 : Half
  /-- `F1` (R6). -/
  f1 : Half
  /-- `F2` (R6). -/
  f2 : Half
  /-- `POLY` (R6). -/
  poly : Half
  /-- `DS64_0` (R7). -/
  ds64x0 : Word
  /-- `DS64_1` (R7). -/
  ds64x1 : Word
  /-- `DS128_0` (R7). -/
  ds128x0 : Word
  /-- `DS128_1` (R7). -/
  ds128x1 : Word
  /-- `AW` (R9): buffer byte addresses are 0 to 2^AW - 1. -/
  aw : Nat
  /-- `REGBASE[i]` (R56): the host address of each engine's register block, in the order of engine numbers. -/
  regbase : List Nat
  /-- Length in bytes of one register block: R27 speaks of its end and gives no number (log 7). -/
  blockBytes : Nat
  deriving DecidableEq, Repr

/-- `NENG` (R10): the number of engines, one register block each. -/
def Config.neng (c : Config) : Nat := c.regbase.length

/-- The defaults of R6, R7, R9 and R10 (UNVERIFIED, as the spec says of them: log 2). `regbase` and `blockBytes` are DESIGN
CHOICE (log 7): the spec leaves them to the platform. -/
def Config.standard : Config :=
  { k0 := 0xc3a5c85c97cb3127, k1 := 0xb492b66fbe98f273
    k2 := 0x9ae16a3b2f90404f, kmul := 0x9ddfea08eb382d69
    c1 := 0xcc9e2d51, c2 := 0x1b873593, c3 := 0xe6546b64
    f1 := 0x85ebca6b, f2 := 0xc2b2ae35, poly := 0x82f63b78
    ds64x0 := 0x9ae16a3b2f90404f, ds64x1 := 0xb492b66fbe98f273
    ds128x0 := 0xc3a5c85c97cb3127, ds128x1 := 0xb492b66fbe98f273
    aw := 64, regbase := [0], blockBytes := 0x100 }

/-- A word is odd. -/
def oddWord (w : Word) : Bool := w.toNat % 2 == 1

/-- No two register blocks overlap (R56). -/
def Config.blocksDisjoint (c : Config) : Bool :=
  decide (c.regbase.Pairwise fun a b => a + c.blockBytes ≤ b ∨ b + c.blockBytes ≤ a)

/-- The constraints the spec puts on the parameters: the 64-bit constants odd (R6), 1 <= AW <= 64 (R9),
NENG >= 1 (R10), blocks that do not overlap (R56) and that hold every offset of R57. A statement that needs one has it
as a premise (log 15). -/
def Config.wellFormed (c : Config) : Bool :=
  oddWord c.k0 && oddWord c.k1 && oddWord c.k2 && oddWord c.kmul
    && decide (1 ≤ c.aw) && decide (c.aw ≤ 64) && decide (1 ≤ c.neng)
    && c.blocksDisjoint && decide (0x80 ≤ c.blockBytes)

end Sys2Proof
end

