-- ==== Sys2Proof/Machine/Mix.lean ====
section
/-!
DEFINITION. The mixing functions of spec/40_primitives.md part 1 (R85 to R96): they read no register and no memory, and
depend on their arguments and the constants of spec/00_scope.md R6 alone (R85).
-/

namespace Sys2Proof.Machine

/-- `Rot64(v, s)` (R86): right rotation; amount 0 is the identity, so no shift by the full width occurs. -/
def rot64 (v : Word) (s : BitVec 6) : Word :=
  if s = 0 then v else (v >>> s.toNat) ||| (v <<< (64 - s.toNat))

/-- `Rot32(v, s)` (R87). -/
def rot32 (v : Half) (s : BitVec 5) : Half :=
  if s = 0 then v else (v >>> s.toNat) ||| (v <<< (32 - s.toNat))

/-- `ShiftMix(v)` (R88). -/
def shiftMix (v : Word) : Word := v ^^^ (v >>> 47)

/-- `Fold(u, v, mul)` (R90). -/
def fold (u v mul : Word) : Word :=
  let a := (u ^^^ v) * mul
  let a := a ^^^ (a >>> 47)
  let b := (v ^^^ a) * mul
  let b := b ^^^ (b >>> 47)
  b * mul

/-- `Fold2(u, v)` (R91). -/
def fold2 (c : Config) (u v : Word) : Word := fold u v c.kmul

/-- `WeakMix(w, x, y, z, a, b)` (R92). -/
def weakMix (w x y z a b : Word) : Word × Word :=
  let a := a + w
  let b := rot64 (b + a + z) 21
  let c := a
  let a := a + x
  let a := a + y
  let b := b + rot64 a 44
  (a + z, b + c)

/-- `Mur32(a, h)` (R93). -/
def mur32 (c : Config) (a h : Half) : Half :=
  let a := a * c.c1
  let a := rot32 a 17
  let a := a * c.c2
  let h := h ^^^ a
  let h := rot32 h 19
  h * 5 + c.c3

/-- `Fmix32(h)` (R94). -/
def fmix32 (c : Config) (h : Half) : Half :=
  let h := h ^^^ (h >>> 16)
  let h := h * c.f1
  let h := h ^^^ (h >>> 13)
  let h := h * c.f2
  h ^^^ (h >>> 16)

/-- One round of the loop of R95: shift right by one, and xor the polynomial in if the bit shifted out is 1. -/
def crcRound (poly : Half) (c : Word) : Word :=
  if c.getLsbD 0 then (c >>> 1) ^^^ poly.setWidth 64 else c >>> 1

/-- That round repeated. -/
def crcRounds (poly : Half) : Nat → Word → Word
  | 0, c => c
  | k + 1, c => crcRounds poly k (crcRound poly c)

/-- `CrcStep(e, w)` (R95). -/
def crcStep (c : Config) (e : Half) (w : Word) : Half :=
  (crcRounds c.poly 64 (e.setWidth 64 ^^^ w)).extractLsb' 0 32

/-- One round of the byte-wise form of R95 on the 32-bit remainder. -/
def crcByteRound (poly e : Half) : Half := if e.getLsbD 0 then (e >>> 1) ^^^ poly else e >>> 1

/-- That round repeated. -/
def crcByteRounds (poly : Half) : Nat → Half → Half
  | 0, e => e
  | k + 1, e => crcByteRounds poly k (crcByteRound poly e)

/-- The byte-wise form over the bytes of `w` from number `j` on, `left` of them: xor the byte into the low byte of the
remainder, then eight rounds (R95). -/
def crcBytes (c : Config) (w : Word) : Nat → Nat → Half → Half
  | 0, _, e => e
  | left + 1, j, e =>
    crcBytes c w left (j + 1) (crcByteRounds c.poly 8 (e ^^^ (w.extractLsb' (8 * j) 8).setWidth 32))

/-- The byte-wise form of CrcStep, the way a software fallback computes it: R95 says that it equals `crcStep`. No command
uses it; it stands for the second implementation of R176 and R184, and a statement says that the two agree. -/
def crcStepBytes (c : Config) (e : Half) (w : Word) : Half := crcBytes c w 8 0 e

/-- `Absorb8(acc, w)` (R96). -/
def absorb8 (c : Config) (acc w : Word) : Word := (acc ^^^ (shiftMix (w * c.k1) * c.k1)) * c.k1

end Sys2Proof.Machine
end

