-- ==== Sys2Proof/Machine/Flags.lean ====
section
/-!
DEFINITION. The two words with fields: STATUS (spec/10_state.md R24) and CAP (R25). Each is a 64-bit register that the
host reads whole; here are its fields and the words that a completion (R28, spec/60_exceptions.md R200) and a reset
(spec/70_reset_and_hazards.md R226) put into them. The engine has no arithmetic flag (R23).
-/

namespace Sys2Proof.Machine

/-- STATUS from its fields: `SERR` bit 9, `NW` bits 8:6, `ECODE` bits 5:2, `ERR` bit 1, `DONE` bit 0, the rest 0 (R24). -/
def packStatus (serr : Bool) (nw : BitVec 3) (ecode : BitVec 4) (err done : Bool) : Word :=
  (BitVec.ofBool serr ++ nw ++ ecode ++ BitVec.ofBool err ++ BitVec.ofBool done).setWidth 64

/-- `DONE`, bit 0: some command has completed since reset. -/
def statusDone (w : Word) : Bool := w.getLsbD 0

/-- `ERR`, bit 1: the most recent command ended with an error. -/
def statusErr (w : Word) : Bool := w.getLsbD 1

/-- `ECODE`, bits 5:2: the error code of the most recent command. -/
def statusEcode (w : Word) : BitVec 4 := w.extractLsb' 2 4

/-- `NW`, bits 8:6: the number of valid result words of the most recent command. -/
def statusNw (w : Word) : BitVec 3 := w.extractLsb' 6 3

/-- `SERR`, bit 9: some command since reset ended with an error. -/
def statusSerr (w : Word) : Bool := w.getLsbD 9

/-- Bits 63:10, which read as 0. -/
def statusZero (w : Word) : BitVec 54 := w.extractLsb' 10 54

/-- STATUS after a success with `k` result words: DONE 1, ERR 0, ECODE 0, NW k, SERR unchanged (R28). -/
def statusOnSuccess (old : Word) (k : BitVec 3) : Word := packStatus (statusSerr old) k 0 false true

/-- STATUS after an error of code `c`: DONE 1, ERR 1, ECODE c, NW 0, SERR 1 (R28, R200). -/
def statusOnError (c : BitVec 4) : Word := packStatus true 0 c true true

/-- CAP from its fields: `OVR` bit 4, `SWFB` bit 3, `HWCRC` bit 2, `CRCSEL` bits 1:0, the rest 0 (R25, R226). -/
def packCap (ovr swfb hwcrc : Bool) (crcsel : BitVec 2) : Word :=
  (BitVec.ofBool ovr ++ BitVec.ofBool swfb ++ BitVec.ofBool hwcrc ++ crcsel).setWidth 64

/-- `CRCSEL`, bits 1:0: the dispatch value of the CRC step. -/
def capCrcsel (w : Word) : BitVec 2 := w.extractLsb' 0 2

/-- `HWCRC`, bit 2: the effective capability. -/
def capHwcrc (w : Word) : Bool := w.getLsbD 2

/-- `SWFB`, bit 3: copy of the strap `SWFB_EN`. -/
def capSwfb (w : Word) : Bool := w.getLsbD 3

/-- `OVR`, bit 4: copy of the strap `CAP_OVR_EN`. -/
def capOvr (w : Word) : Bool := w.getLsbD 4

/-- Bits 63:5, which read as 0. -/
def capZero (w : Word) : BitVec 59 := w.extractLsb' 5 59

/-- CRCSEL = NONE: neither hardware instruction nor software fallback (R25). -/
abbrev crcselNone : BitVec 2 := 0

/-- CRCSEL = HW: the hardware instruction. -/
abbrev crcselHw : BitVec 2 := 1

/-- CRCSEL = SW: the software fallback. -/
abbrev crcselSw : BitVec 2 := 2

/-- The effective capability: the override's value if the override is enabled, else the probe's (R176, R226). -/
def effectiveHwcrc (p : Straps) : Bool := if p.capOvrEn then p.capOvrVal else p.hwcrcProbe

/-- The CRC dispatch value: hardware first, then the fallback, else none (R176, R226). -/
def resolveCrcsel (p : Straps) : BitVec 2 :=
  if effectiveHwcrc p then crcselHw else if p.swfbEn then crcselSw else crcselNone

/-- The capability latch computed from the straps at reset (R226). -/
def capOf (p : Straps) : Word := packCap p.capOvrEn p.swfbEn (effectiveHwcrc p) (resolveCrcsel p)

end Sys2Proof.Machine
end

