-- ==== Sys2Proof/Machine/State.lean ====
section
/-!
DEFINITION. The state of the machine as plain data: the register file of every engine instance (spec/10_state.md R20
to R25), the buffer memory (spec/20_memory.md R45), the strap inputs and the parameters (spec/00_scope.md R6 to R10),
and the host's pending operations. `State.reset` is the machine after reset (spec/70_reset_and_hazards.md R225).
-/

namespace Sys2Proof.Machine

/-- The registers of one engine instance (R20, R21, R24, R25). CMD holds no state (R26). -/
structure Engine where
  /-- `PTR`, byte address of the buffer. -/
  ptr : Word
  /-- `LEN`, length of the buffer in bytes. -/
  len : Word
  /-- `SEED0`. -/
  seed0 : Word
  /-- `SEED1`. -/
  seed1 : Word
  /-- `X0`, first operand of a primitive command. -/
  x0 : Word
  /-- `X1`, second operand. -/
  x1 : Word
  /-- `X2`, third operand. -/
  x2 : Word
  /-- `D0`, result word 0, the least significant. -/
  d0 : Word
  /-- `D1`, result word 1. -/
  d1 : Word
  /-- `D2`, result word 2. -/
  d2 : Word
  /-- `D3`, result word 3. -/
  d3 : Word
  /-- `STATUS` (fields in Machine/Flags.lean). -/
  status : Word
  /-- `CAP`, the capability latch (fields in Machine/Flags.lean). -/
  cap : Word
  deriving DecidableEq, Repr

/-- The three error conditions of a command (spec/60_exceptions.md R196). They are taken, not faults of the model:
the command ends in the error form of the completion update and the machine goes on (R200). -/
inductive CmdError where
  /-- The buffer does not fit the addressing width, or an offset reaches past the buffer (R197, R198). -/
  | invalidArgument
  /-- CRC step needed, no hardware instruction and no software fallback (R201). -/
  | capabilityUnavailable
  /-- The value written to CMD is not a legal command word (R199). -/
  | illegalCommand
  deriving DecidableEq, Repr

/-- The result words of a command that succeeds: 1, 2 or 4 of them (R28). -/
inductive ResultWords where
  /-- One result word, D0. -/
  | one (r0 : Word)
  /-- Two result words, D0 and D1. -/
  | two (r0 r1 : Word)
  /-- Four result words, D0 to D3. -/
  | four (r0 r1 r2 r3 : Word)
  deriving DecidableEq, Repr

/-- What the host and the platform can do to the machine, one at a time. Addresses of register accesses are host
addresses, `REGBASE[i]` plus an offset (R56, R58); `size` is the access width in bytes. -/
inductive HostOp where
  /-- A register read. -/
  | rd (addr size : Nat)
  /-- A register write of the value `v`; a write to CMD issues a command (spec/30_encoding.md R64). -/
  | wr (addr size : Nat) (v : Word)
  /-- A completed host store of one byte to buffer memory (spec/20_memory.md R45, R60 c). -/
  | store (addr : Nat) (b : Byte)
  /-- The strap inputs change level; no effect on any latch until reset (R226). -/
  | straps (p : Straps)
  /-- The reset event, applied to all engines together (R225). -/
  | reset
  /-- A register write that reset cuts short before it completes: the command, if it is one, is abandoned and the
  state is the reset state (R227). DESIGN CHOICE (log 9): so it is for a write to any other register, and for one that is
  narrow, wide, misaligned or in no register block, which is not refused when reset cuts it. -/
  | wrCut (addr size : Nat) (v : Word)
  deriving DecidableEq, Repr

/-- What the host's last register transaction returned to it. The model's own field. -/
inductive Reply where
  /-- No transaction has returned since reset, or the last operation was not a register transaction. -/
  | none
  /-- A read returned this value. -/
  | data (v : Word)
  /-- A write returned (R64: after the command, if it issued one, has completed). -/
  | done
  /-- The write was cut by reset: what the platform returns to the host is not specified (R227; log 9). -/
  | abandoned
  deriving DecidableEq, Repr

/-- Buffer memory: the bytes that differ from what an unlisted address reads as, addresses strictly rising. -/
abbrev Memory := List Host.Cell

/-- The machine. -/
structure State where
  /-- The parameters; no step changes them. -/
  cfg : Config
  /-- Levels of the strap inputs now (R8; log 17). -/
  pins : Straps
  /-- Buffer memory, shared by all engines, owned by the host (R45). -/
  mem : Memory
  /-- The engines with smaller numbers than the foreground engine, in order (R214; log 11). -/
  lower : List Engine
  /-- The foreground engine: the one the host's current transaction addresses. -/
  eng : Engine
  /-- The engines with greater numbers, in order. -/
  upper : List Engine
  /-- Host operations still to happen, the next one first. -/
  queue : List HostOp
  /-- What the last register transaction returned. -/
  reply : Reply
  deriving DecidableEq, Repr

/-- Reasons the machine stops with a fault. No command of the engine ever raises one. -/
inductive Fault where
  /-- Raised by a host store to a buffer byte address at or above 2^AW: no such byte exists (spec/20_memory.md R46).
  Safe: the model stops where the spec says there is nothing to write. -/
  | noSuchByte (addr : Nat)
  deriving DecidableEq, Repr

/-- Reasons the model refuses a step. -/
inductive Refusal where
  /-- An instruction whose meaning is not written; no arm of `exec` raises it. Safe. -/
  | notModelled (mnemonic : String)
  /-- Raised by a host access to a register block that is not one whole aligned 64-bit register: the spec does not
  define it and says that a model refuses it (spec/20_memory.md R58). Safe. -/
  | notWholeRegister (addr size : Nat)
  /-- Raised by a host register access to an address in no engine's register block: it is not an access to this
  hardware (R56, R215). Safe. -/
  | noRegisterBlock (addr : Nat)
  deriving DecidableEq, Repr

/-- One engine after reset, with the latch value `cap`: everything else 0 (R225, R228). -/
def Engine.atReset (cap : Word) : Engine :=
  { ptr := 0, len := 0, seed0 := 0, seed1 := 0, x0 := 0, x1 := 0, x2 := 0
    d0 := 0, d1 := 0, d2 := 0, d3 := 0, status := 0, cap := cap }

/-- The machine after reset with the parameters `c`, the straps `p` and the buffer memory `m`: NENG engines, all in the
same reset state (R225, R226), nothing pending. -/
def State.resetWith (c : Config) (p : Straps) (m : Memory) : State :=
  { cfg := c, pins := p, mem := m
    lower := [], eng := Engine.atReset (capOf p)
    upper := List.replicate (c.neng - 1) (Engine.atReset (capOf p))
    queue := [], reply := .none }

/-- The machine right after reset, with the default parameters and the straps of log 3; nothing is listed in memory. -/
def State.reset : State := State.resetWith Config.standard Straps.standard []

end Sys2Proof.Machine
end

