-- ==== Sys2Proof/Machine/Ops.lean ====
section
/-!
DEFINITION. The named operations on memory and registers: reading and storing buffer bytes (spec/20_memory.md R47),
the completion update (spec/10_state.md R28), taking an error (spec/60_exceptions.md R200: the engine's only exceptions,
with no trap entry R207 and no return R208), host access to a register (R57, R58) and the reset event (R225).
-/

namespace Sys2Proof.Machine

/-- What a buffer byte that no host has written reads as. DESIGN CHOICE (log 4, unsafe): the spec leaves the contents of
memory to the host and says that a model's memory is total (spec/93_implementation_defined.md U4). -/
def unlistedByte : Byte := 0

/-- The canonical form of memory: addresses strictly rising, no entry that an unlisted address reads as. -/
abbrev Memory.wf (m : Memory) : Prop :=
  m.Pairwise (fun c d => c.1 < d.1) ∧ ∀ c ∈ m, c.2 ≠ unlistedByte

/-- The byte at an address. -/
def readByte : Memory → Nat → Byte
  | [], _ => unlistedByte
  | (a, b) :: m, x => if x = a then b else readByte m x

/-- Memory with the byte `v` at address `x`, in canonical form. -/
def writeByte : Memory → Nat → Byte → Memory
  | [], x, v => if v = unlistedByte then [] else [(x, v)]
  | (a, b) :: m, x, v =>
    if x < a then (if v = unlistedByte then (a, b) :: m else (x, v) :: (a, b) :: m)
    else if x = a then (if v = unlistedByte then m else (a, v) :: m)
    else (a, b) :: writeByte m x v

/-- `MemRead(addr, k)` (R47): the unsigned integer `b[0] + 256*b[1] + ... + 256^(k-1)*b[k-1]`, little-endian (R48),
at any address (R49). -/
def memRead (m : Memory) (addr : Nat) : Nat → Nat
  | 0 => 0
  | k + 1 => (readByte m addr).toNat + 256 * memRead m (addr + 1) k

/-- The error codes (R196). -/
def CmdError.code : CmdError → BitVec 4
  | .invalidArgument => 1
  | .capabilityUnavailable => 2
  | .illegalCommand => 3

/-- The completion update for a success (R28): the result words, zero in every result register beyond them, and STATUS. -/
def Engine.complete (r : ResultWords) (e : Engine) : Engine :=
  match r with
  | .one r0 => { e with d0 := r0, d1 := 0, d2 := 0, d3 := 0, status := statusOnSuccess e.status 1 }
  | .two r0 r1 => { e with d0 := r0, d1 := r1, d2 := 0, d3 := 0, status := statusOnSuccess e.status 2 }
  | .four r0 r1 r2 r3 =>
    { e with d0 := r0, d1 := r1, d2 := r2, d3 := r3, status := statusOnSuccess e.status 4 }

/-- The completion update for an error (R28, R200): D0 to D3 zero, the code in STATUS, nothing else. -/
def Engine.fail (x : CmdError) (e : Engine) : Engine :=
  { e with d0 := 0, d1 := 0, d2 := 0, d3 := 0, status := statusOnError x.code }

/-- The command of the foreground engine succeeds with these result words. -/
def State.complete (r : ResultWords) (s : State) : State := { s with eng := s.eng.complete r }

/-- `raise E` (R14, R200): the command of the foreground engine ends with the error `x`. No control is transferred and
nothing else is saved (R202, R207); the engine accepts the next command as after a success (R208). -/
def State.raise (x : CmdError) (s : State) : State := { s with eng := s.eng.fail x }

/-- All engines in the order of their numbers (R214). -/
def State.engines (s : State) : List Engine := s.lower ++ s.eng :: s.upper

/-- The reset event (R225, R226): every engine's registers 0 and its latch computed from the straps as they are now.
Buffer memory, straps and parameters are not the engine's and stay (R228). -/
def State.resetEvent (s : State) : State :=
  { s with
    lower := s.lower.map fun _ => Engine.atReset (capOf s.pins)
    eng := Engine.atReset (capOf s.pins)
    upper := s.upper.map fun _ => Engine.atReset (capOf s.pins)
    reply := .none }

/-- The value a host read of the register at an offset returns (R57): CMD and every reserved offset read 0 (R26, R27). -/
def Engine.readReg (e : Engine) (off : Nat) : Word :=
  match off with
  | 0x08 => e.status
  | 0x10 => e.cap
  | 0x20 => e.ptr
  | 0x28 => e.len
  | 0x30 => e.seed0
  | 0x38 => e.seed1
  | 0x40 => e.x0
  | 0x48 => e.x1
  | 0x50 => e.x2
  | 0x60 => e.d0
  | 0x68 => e.d1
  | 0x70 => e.d2
  | 0x78 => e.d3
  | _ => 0

/-- A host write to a register other than CMD (R57): the seven operand registers take the value; a write to STATUS, CAP,
D0 to D3 or a reserved offset is ignored (R21, R24, R25, R27). -/
def Engine.writeReg (e : Engine) (off : Nat) (v : Word) : Engine :=
  match off with
  | 0x20 => { e with ptr := v }
  | 0x28 => { e with len := v }
  | 0x30 => { e with seed0 := v }
  | 0x38 => { e with seed1 := v }
  | 0x40 => { e with x0 := v }
  | 0x48 => { e with x1 := v }
  | 0x50 => { e with x2 := v }
  | _ => e

/-- The engine number and the offset that a host address names, given the bases of the register blocks (R56). -/
def locateBlock (blockBytes : Nat) : List Nat → Nat → Option (Nat × Nat)
  | [], _ => none
  | b :: bs, addr =>
    if b ≤ addr ∧ addr < b + blockBytes then some (0, addr - b)
    else (locateBlock blockBytes bs addr).map fun t => (t.1 + 1, t.2)

/-- The engine and the offset that a host address names on this platform. -/
def Config.locate (c : Config) (addr : Nat) : Option (Nat × Nat) := locateBlock c.blockBytes c.regbase addr

/-- Bring engine number `j` to the foreground; no register of any engine changes (log 11). -/
def State.focus (s : State) (j : Nat) : Option State :=
  match s.engines.drop j with
  | [] => none
  | e :: rest => some { s with lower := s.engines.take j, eng := e, upper := rest }

/-- Where a host register access goes. -/
inductive Target where
  /-- To the register at this offset of the foreground engine of this state. -/
  | reg (s : State) (off : Nat)
  /-- Nowhere this hardware defines. -/
  | refuse (r : Refusal)
  deriving DecidableEq, Repr

/-- Find the register a host access names: one whole aligned 64-bit register of one engine, anything else refused
(R58; spec/93_implementation_defined.md U6). -/
def State.target (s : State) (addr size : Nat) : Target :=
  match Config.locate s.cfg addr with
  | none => .refuse (.noRegisterBlock addr)
  | some (j, off) =>
    if size = 8 ∧ off % 8 = 0 then
      match s.focus j with
      | some t => .reg t off
      | none => .refuse (.noRegisterBlock addr)
    else .refuse (.notWholeRegister addr size)

end Sys2Proof.Machine
end

