-- ==== Sys2Proof/Machine/Operands.lean ====
section
/-!
DEFINITION. The operand forms: the input buffer with its fetches (spec/00_scope.md R15, spec/20_memory.md R45 to R49), the
bit fields a command takes from an operand register (spec/40_primitives.md R98 to R117), and the two checks made before any
read (spec/60_exceptions.md R197, R198). Operands are the registers at issue (spec/30_encoding.md R65, R74).
-/

namespace Sys2Proof.Machine

/-- The input buffer of a command: `len` bytes of memory at `base` (R45). -/
structure Buffer where
  /-- Buffer memory. -/
  mem : Memory
  /-- Address of the first byte. -/
  base : Nat
  /-- Number of bytes, `n` in the rules. -/
  len : Nat
  deriving DecidableEq, Repr

/-- The buffer `(x[PTR], x[LEN])` of the foreground engine. -/
def State.buffer (s : State) : Buffer := { mem := s.mem, base := s.eng.ptr.toNat, len := s.eng.len.toNat }

/-- `B[o]` (R15), as a word. -/
def Buffer.byteAt (b : Buffer) (o : Nat) : Word := BitVec.ofNat 64 (memRead b.mem (b.base + o) 1)

/-- `F32(o)` (R15): the four bytes at offset `o`, little-endian, zero-extended. -/
def Buffer.f32 (b : Buffer) (o : Nat) : Word := (BitVec.ofNat 32 (memRead b.mem (b.base + o) 4)).setWidth 64

/-- `F64(o)` (R15): the eight bytes at offset `o`, little-endian. -/
def Buffer.f64 (b : Buffer) (o : Nat) : Word := BitVec.ofNat 64 (memRead b.mem (b.base + o) 8)

/-- The buffer length as a 64-bit operand (R13: reduced modulo 2^64). -/
def Buffer.lenWord (b : Buffer) : Word := BitVec.ofNat 64 b.len

/-- `v[31:0]`. -/
def lowHalf (v : Word) : Half := v.extractLsb' 0 32

/-- `v[63:32]`. -/
def highHalf (v : Word) : Half := v.extractLsb' 32 32

/-- `zext_64` of a half word (R12). -/
def zext64 (h : Half) : Word := h.setWidth 64

/-- The amount of ROT64R: `v[5:0]` (R100). -/
def amount64 (v : Word) : BitVec 6 := v.extractLsb' 0 6

/-- The amount of ROT32R: `v[4:0]` (R102). -/
def amount32 (v : Word) : BitVec 5 := v.extractLsb' 0 5

/-- The amount of a legal ROT32I: `SH` up to 31 in 5 bits (R69 c). -/
def immediate32 (sh : BitVec 6) : BitVec 5 := sh.extractLsb' 0 5

/-- The buffer check (R197) fails: `p + n > 2^AW` over the integers. -/
def State.bufferCheckFails (s : State) : Bool :=
  decide (s.eng.ptr.toNat + s.eng.len.toNat > 2 ^ s.cfg.aw)

/-- The offset check (R106, R198) of a command that reads `k` bytes at the offset `o` fails: `o + k > x[LEN]` over the
integers. -/
def State.offsetCheckFails (s : State) (o : Word) (k : Nat) : Bool :=
  decide (o.toNat + k > s.eng.len.toNat)

/-- CRCSEL = NONE in the foreground engine's latch (R177, R201). -/
def State.crcUnavailable (s : State) : Bool := decide (capCrcsel s.eng.cap = crcselNone)

end Sys2Proof.Machine
end

