-- ==== Sys2Proof/Machine/Core64.lean ====
section
/-!
DEFINITION. The length-dispatch core (spec/41_core64.md): the function Core64 over the command's buffer (R125 to R141)
and the commands H64, H64S, H64SS and H32 (R142 to R149). The local names are those of the rules.
-/

namespace Sys2Proof.Machine

/-- The length-dependent multiplier `m = K2 + 2n` modulo 2^64 (R126). -/
def lengthMul (c : Config) (b : Buffer) : Word := c.k2 + 2 * b.lenWord

/-- Bucket B0, `n = 0` (R128). -/
def coreB0 (c : Config) (b : Buffer) (s0 s1 : Word) : Word := fold s0 s1 (lengthMul c b)

/-- The packed word `p` of bucket B1 (R129). -/
def packB1 (b : Buffer) : Word :=
  b.byteAt 0 + 256 * b.byteAt (b.len / 2) + 65536 * b.byteAt (b.len - 1) + 16777216 * b.lenWord

/-- Bucket B1, `1 <= n <= 3` (R129). -/
def coreB1 (c : Config) (b : Buffer) (s0 s1 : Word) : Word := fold (s0 + packB1 b) s1 (lengthMul c b)

/-- Bucket B2, `4 <= n <= 7` (R130). -/
def coreB2 (c : Config) (b : Buffer) (s0 s1 : Word) : Word :=
  let lo := b.f32 0
  let hi := b.f32 (b.len - 4)
  fold (s0 + b.lenWord + (lo <<< 3)) (s1 + hi) (lengthMul c b)

/-- Bucket B3, `8 <= n <= 16` (R131). -/
def coreB3 (c : Config) (b : Buffer) (s0 s1 : Word) : Word :=
  let m := lengthMul c b
  let x := b.f64 0 + s0
  let y := b.f64 (b.len - 8) + s1
  let p := rot64 y 37 * m + x
  let q := (rot64 x 25 + y) * m
  fold (p + b.lenWord) q m

/-- `Absorb16(u, v, w0, w1)` (R133). -/
def absorb16 (c : Config) (u v w0 w1 : Word) : Word × Word :=
  let u1 := absorb8 c u w0
  let v1 := rot64 v 33 ^^^ u1
  let v2 := absorb8 c v1 w1
  let u2 := rot64 u1 29 ^^^ v2
  (u2, v2)

/-- One 16-byte stride of B4 and B5 at the offset `o` (R132). -/
def absorbStride (c : Config) (b : Buffer) (uv : Word × Word) (o : Nat) : Word × Word :=
  absorb16 c uv.1 uv.2 (b.f64 o) (b.f64 (o + 8))

/-- Bucket B4, `17 <= n <= 32`: strides at 0 and `n - 16` (R132, R134). -/
def coreB4 (c : Config) (b : Buffer) (s0 s1 : Word) : Word :=
  let uv := absorbStride c b (s0, s1) 0
  let uv := absorbStride c b uv (b.len - 16)
  fold (uv.1 + b.lenWord) uv.2 (lengthMul c b)

/-- Bucket B5, `33 <= n <= 64`: strides at 0, 16, `n - 32` and `n - 16` (R132, R135). -/
def coreB5 (c : Config) (b : Buffer) (s0 s1 : Word) : Word :=
  let uv := absorbStride c b (s0, s1) 0
  let uv := absorbStride c b uv 16
  let uv := absorbStride c b uv (b.len - 32)
  let uv := absorbStride c b uv (b.len - 16)
  fold (uv.1 + b.lenWord) uv.2 (lengthMul c b)

/-- The seven accumulators of bucket B6 (R136); they exist only inside a command (spec/10_state.md R30). -/
structure LongAcc where
  /-- `x`. -/
  x : Word
  /-- `y`. -/
  y : Word
  /-- `z`. -/
  z : Word
  /-- `(v0, v1)`. -/
  v : Word × Word
  /-- `(w0, w1)`. -/
  w : Word × Word
  deriving DecidableEq, Repr

/-- B6 initialisation from the tail window `[n - 64, n)` and the seeds (R137). -/
def longInit (c : Config) (b : Buffer) (s0 s1 : Word) : LongAcc :=
  let n := b.len
  let x := b.f64 (n - 40)
  let y := b.f64 (n - 16) + b.f64 (n - 56)
  let z := fold2 c (b.f64 (n - 48) + b.lenWord) (b.f64 (n - 24))
  let v := weakMix (b.f64 (n - 64)) (b.f64 (n - 56)) (b.f64 (n - 48)) (b.f64 (n - 40)) (b.lenWord + s0) z
  let w := weakMix (b.f64 (n - 32)) (b.f64 (n - 24)) (b.f64 (n - 16)) (b.f64 (n - 8)) (y + s1) x
  let x := x * c.k1 + b.f64 0
  { x := x, y := y, z := z, v := v, w := w }

/-- B6 update for the 64-byte stride at `pos` (R138). -/
def longStride (c : Config) (b : Buffer) (t : LongAcc) (pos : Nat) : LongAcc :=
  let x := rot64 (t.x + t.y + t.v.1 + b.f64 (pos + 8)) 37 * c.k1
  let y := rot64 (t.y + t.v.2 + b.f64 (pos + 48)) 42 * c.k1
  let x := x ^^^ t.w.2
  let y := y + t.v.1 + b.f64 (pos + 40)
  let z := rot64 (t.z + t.w.1) 33 * c.k1
  let v := weakMix (b.f64 pos) (b.f64 (pos + 8)) (b.f64 (pos + 16)) (b.f64 (pos + 24)) (t.v.2 * c.k1) (x + t.w.1)
  let w := weakMix (b.f64 (pos + 32)) (b.f64 (pos + 40)) (b.f64 (pos + 48)) (b.f64 (pos + 56)) (z + t.w.2)
    (y + b.f64 (pos + 16))
  { x := z, y := y, z := x, v := v, w := w }

/-- `k` strides from `pos` on (R138). -/
def longStrides (c : Config) (b : Buffer) : Nat → Nat → LongAcc → LongAcc
  | 0, _, t => t
  | k + 1, pos, t => longStrides c b k (pos + 64) (longStride c b t pos)

/-- B6 reduction (R139). -/
def longReduce (c : Config) (t : LongAcc) : Word :=
  fold2 c (fold2 c t.v.1 t.w.1 + shiftMix t.y * c.k1 + t.z) (fold2 c t.v.2 t.w.2 + t.x)

/-- Bucket B6, `n >= 65`: `(n - 1) div 64` strides from offset 0 (R136 to R139). -/
def coreB6 (c : Config) (b : Buffer) (s0 s1 : Word) : Word :=
  longReduce c (longStrides c b ((b.len - 1) / 64) 0 (longInit c b s0 s1))

/-- `Core64(n, s0, s1)` over the buffer (R125): the bucket is chosen by `n` alone (R127). -/
def core64 (c : Config) (b : Buffer) (s0 s1 : Word) : Word :=
  if b.len = 0 then coreB0 c b s0 s1
  else if b.len ≤ 3 then coreB1 c b s0 s1
  else if b.len ≤ 7 then coreB2 c b s0 s1
  else if b.len ≤ 16 then coreB3 c b s0 s1
  else if b.len ≤ 32 then coreB4 c b s0 s1
  else if b.len ≤ 64 then coreB5 c b s0 s1
  else coreB6 c b s0 s1

/-- `H64` (R143): the default seeds. -/
def execH64 (s : State) : Host.Outcome State Fault Refusal :=
  if s.bufferCheckFails then .next (s.raise .invalidArgument)
  else .next (s.complete (.one (core64 s.cfg s.buffer s.cfg.ds64x0 s.cfg.ds64x1)))

/-- `H64S` (R145): SEED0 in the place of the first default seed. -/
def execH64s (s : State) : Host.Outcome State Fault Refusal :=
  if s.bufferCheckFails then .next (s.raise .invalidArgument)
  else .next (s.complete (.one (core64 s.cfg s.buffer s.eng.seed0 s.cfg.ds64x1)))

/-- `H64SS` (R147): both caller seeds. -/
def execH64ss (s : State) : Host.Outcome State Fault Refusal :=
  if s.bufferCheckFails then .next (s.raise .invalidArgument)
  else .next (s.complete (.one (core64 s.cfg s.buffer s.eng.seed0 s.eng.seed1)))

/-- The 32-bit reduction of a 64-bit digest (R149). -/
def reduce32 (c : Config) (h : Word) : Word := zext64 (fmix32 c (mur32 c (highHalf h) (lowHalf h)))

/-- `H32` (R149): the H64 value reduced to 32 bits. -/
def execH32 (s : State) : Host.Outcome State Fault Refusal :=
  if s.bufferCheckFails then .next (s.raise .invalidArgument)
  else .next (s.complete (.one (reduce32 s.cfg (core64 s.cfg s.buffer s.cfg.ds64x0 s.cfg.ds64x1))))

end Sys2Proof.Machine
end

