-- ==== Sys2Proof/Machine/Wide.lean ====
section
/-!
DEFINITION. The 128-bit and 256-bit combiners (spec/42_wide.md): Core128 (R155 to R157), the four-lane H256 (R163 to R170),
and the commands H128, H128S and H256. Lanes are scalar computations (R171).
-/

namespace Sys2Proof.Machine

/-- The cross-mix of two lanes (R157). -/
def crossMix (c : Config) (h0 h1 : Word) : Word × Word :=
  let d0 := fold2 c h0 h1
  let d1 := fold2 c h1 d0
  (d0, d1)

/-- The seed pair of lane 1, from that of lane 0 (R156). -/
def lane1Seeds (c : Config) (s0 s1 : Word) : Word × Word := (s1 ^^^ c.k0, s0 ^^^ c.k1)

/-- `Core128(n, s0, s1)` over the buffer (R155 to R157): two lanes with the seed pairs of R156, then the cross-mix. -/
def core128 (c : Config) (b : Buffer) (s0 s1 : Word) : Word × Word :=
  let seeds := lane1Seeds c s0 s1
  crossMix c (core64 c b s0 s1) (core64 c b seeds.1 seeds.2)

/-- `H128` (R160): the default seeds. -/
def execH128 (s : State) : Host.Outcome State Fault Refusal :=
  if s.bufferCheckFails then .next (s.raise .invalidArgument)
  else
    let d := core128 s.cfg s.buffer s.cfg.ds128x0 s.cfg.ds128x1
    .next (s.complete (.two d.1 d.2))

/-- `H128S` (R162): the caller's seeds. -/
def execH128s (s : State) : Host.Outcome State Fault Refusal :=
  if s.bufferCheckFails then .next (s.raise .invalidArgument)
  else
    let d := core128 s.cfg s.buffer s.eng.seed0 s.eng.seed1
    .next (s.complete (.two d.1 d.2))

/-- The four lane accumulators `acc[0..3]` of H256 (R163). -/
structure Lanes where
  /-- `acc[0]`. -/
  a0 : Word
  /-- `acc[1]`. -/
  a1 : Word
  /-- `acc[2]`. -/
  a2 : Word
  /-- `acc[3]`. -/
  a3 : Word
  deriving DecidableEq, Repr

/-- The lane constants `Q[0..3] = (K0, K1, K2, KMUL)` (spec/00_scope.md R7, R163). -/
def laneConstants (c : Config) : Lanes := { a0 := c.k0, a1 := c.k1, a2 := c.k2, a3 := c.kmul }

/-- H256 short path, `n < 32`: lane `i` is `Core64(n, Q[i], Q[(i + 1) mod 4])` (R164). -/
def lanesShort (c : Config) (b : Buffer) : Lanes :=
  let q := laneConstants c
  { a0 := core64 c b q.a0 q.a1, a1 := core64 c b q.a1 q.a2
    a2 := core64 c b q.a2 q.a3, a3 := core64 c b q.a3 q.a0 }

/-- H256 long path, initial accumulators `Q[i] + n` (R165). -/
def lanesInit (c : Config) (b : Buffer) : Lanes :=
  let q := laneConstants c
  { a0 := q.a0 + b.lenWord, a1 := q.a1 + b.lenWord, a2 := q.a2 + b.lenWord, a3 := q.a3 + b.lenWord }

/-- H256 lane update for the stride at `off` (R167). -/
def lanesAbsorb (c : Config) (b : Buffer) (t : Lanes) (off : Nat) : Lanes :=
  { a0 := absorb8 c t.a0 (b.f64 off), a1 := absorb8 c t.a1 (b.f64 (off + 8))
    a2 := absorb8 c t.a2 (b.f64 (off + 16)), a3 := absorb8 c t.a3 (b.f64 (off + 24)) }

/-- H256 interleave: four sequential assignments, the last one using the `acc[0]` just written (R168). -/
def lanesInterleave (t : Lanes) : Lanes :=
  let a0 := t.a0 ^^^ rot64 t.a1 37
  let a1 := t.a1 ^^^ rot64 t.a2 42
  let a2 := t.a2 ^^^ rot64 t.a3 33
  let a3 := t.a3 ^^^ rot64 a0 43
  { a0 := a0, a1 := a1, a2 := a2, a3 := a3 }

/-- `left` strides from number `k` on, stride `k` at offset `min(32k, n - 32)` (R165). -/
def lanesStrides (c : Config) (b : Buffer) : Nat → Nat → Lanes → Lanes
  | 0, _, t => t
  | left + 1, k, t =>
    lanesStrides c b left (k + 1) (lanesInterleave (lanesAbsorb c b t (min (32 * k) (b.len - 32))))

/-- H256 long path, `n >= 32`: `(n + 31) div 32` strides (R165 to R168). -/
def lanesLong (c : Config) (b : Buffer) : Lanes :=
  lanesStrides c b ((b.len + 31) / 32) 0 (lanesInit c b)

/-- The accumulators of H256 before finalisation: the path is chosen by `n` alone (R163, R170). -/
def lanesOf (c : Config) (b : Buffer) : Lanes := if b.len < 32 then lanesShort c b else lanesLong c b

/-- H256 finalisation (R169). -/
def lanesFinal (c : Config) (t : Lanes) : Lanes :=
  let w := fold2 c (fold2 c t.a0 t.a1) (fold2 c t.a2 t.a3)
  { a0 := fold2 c (t.a0 + w) t.a1, a1 := fold2 c (t.a1 + w) t.a2
    a2 := fold2 c (t.a2 + w) t.a3, a3 := fold2 c (t.a3 + w) t.a0 }

/-- `H256` (R170). -/
def execH256 (s : State) : Host.Outcome State Fault Refusal :=
  if s.bufferCheckFails then .next (s.raise .invalidArgument)
  else
    let d := lanesFinal s.cfg (lanesOf s.cfg s.buffer)
    .next (s.complete (.four d.a0 d.a1 d.a2 d.a3))

end Sys2Proof.Machine
end

