-- ==== Sys2Proof/Machine/Crc.lean ====
section
/-!
DEFINITION. The CRC-accelerated 128-bit variant and the capability query (spec/43_crc.md): H128C (R177 to R184) and
CAPQ (R185). The hardware and the software CRC compute the same function (R184), so the latch decides only whether the
command succeeds.
-/

namespace Sys2Proof.Machine

/-- The accumulators `a`, `b` and the CRC remainder `e` of the stride walk (R179). -/
structure CrcAcc where
  /-- `a`. -/
  a : Word
  /-- `b`. -/
  b : Word
  /-- `e`. -/
  e : Half
  deriving DecidableEq, Repr

/-- The data word with the CRC output in its upper half: `q[j] = w[j] ^ (zext_64(e) << 32)` (R180). -/
def crcQ (w : Word) (e : Half) : Word := w ^^^ (e.setWidth 64 <<< 32)

/-- Half-stride update at the byte offset `o` (R180): four CrcStep in sequence, WeakMix, two Fold2. -/
def crcHalf (c : Config) (b : Buffer) (t : CrcAcc) (o : Nat) : CrcAcc :=
  let w0 := b.f64 o
  let e0 := crcStep c t.e w0
  let w1 := b.f64 (o + 8)
  let e1 := crcStep c e0 w1
  let w2 := b.f64 (o + 16)
  let e2 := crcStep c e1 w2
  let w3 := b.f64 (o + 24)
  let e3 := crcStep c e2 w3
  let m := weakMix (crcQ w0 e0) (crcQ w1 e1) (crcQ w2 e2) (crcQ w3 e3) t.a t.b
  let a := fold2 c m.1 m.2
  let b' := fold2 c m.2 a
  { a := a, b := b', e := e3 }

/-- Initial accumulators: the default 128-bit seeds and `e = n[31:0]` (R179). -/
def crcInit (c : Config) (b : Buffer) : CrcAcc :=
  { a := c.ds128x0, b := c.ds128x1, e := BitVec.ofNat 32 b.len }

/-- `left` strides from number `k` on, stride `k` at offset `min(64k, n - 64)`, two half-strides each (R179). -/
def crcStrides (c : Config) (b : Buffer) : Nat → Nat → CrcAcc → CrcAcc
  | 0, _, t => t
  | left + 1, k, t =>
    let off := min (64 * k) (b.len - 64)
    crcStrides c b left (k + 1) (crcHalf c b (crcHalf c b t off) (off + 32))

/-- Finalisation (R181). -/
def crcFinal (c : Config) (b : Buffer) (t : CrcAcc) : Word × Word :=
  let d0 := fold2 c t.a (t.b + b.lenWord)
  let d1 := fold2 c t.b d0
  (d0, d1)

/-- The CRC path, `n >= 64`: `(n + 63) div 64` strides (R179 to R181). -/
def crcLong (c : Config) (b : Buffer) : Word × Word :=
  crcFinal c b (crcStrides c b ((b.len + 63) / 64) 0 (crcInit c b))

/-- The H128C digest: the H128 value below one stride (R178), the CRC path from 64 bytes on (R179). -/
def crcDigest (c : Config) (b : Buffer) : Word × Word :=
  if b.len < 64 then core128 c b c.ds128x0 c.ds128x1 else crcLong c b

/-- `H128C` (R182): capability check, then buffer check, then the digest. -/
def execH128c (s : State) : Host.Outcome State Fault Refusal :=
  if s.crcUnavailable then .next (s.raise .capabilityUnavailable)
  else if s.bufferCheckFails then .next (s.raise .invalidArgument)
  else
    let d := crcDigest s.cfg s.buffer
    .next (s.complete (.two d.1 d.2))

/-- `CAPQ` (R185): `zext_64(HWCRC)`; it reads no buffer register and cannot fail. -/
def execCapq (s : State) : Host.Outcome State Fault Refusal :=
  .next (s.complete (.one ((BitVec.ofBool (capHwcrc s.eng.cap)).setWidth 64)))

end Sys2Proof.Machine
end

