-- ==== Sys2Proof/Machine/Primitives.lean ====
section
/-!
DEFINITION. The thirteen primitive commands (spec/40_primitives.md part 2, R98 to R117). Each ends with the completion
update and changes nothing else (R98, spec/10_state.md R29).
-/

namespace Sys2Proof.Machine

/-- `ROT64I #sh` (R99). -/
def execRot64i (sh : BitVec 6) (s : State) : Host.Outcome State Fault Refusal :=
  .next (s.complete (.one (rot64 s.eng.x0 sh)))

/-- `ROT64R` (R100): the amount is `x[X1][5:0]`. -/
def execRot64r (s : State) : Host.Outcome State Fault Refusal :=
  .next (s.complete (.one (rot64 s.eng.x0 (amount64 s.eng.x1))))

/-- `ROT32I #sh` (R101): IllegalCommand when `SH >= 32` (log 13). -/
def execRot32i (sh : BitVec 6) (s : State) : Host.Outcome State Fault Refusal :=
  if sh.toNat ≥ 32 then .next (s.raise .illegalCommand)
  else .next (s.complete (.one (zext64 (rot32 (lowHalf s.eng.x0) (immediate32 sh)))))

/-- `ROT32R` (R102): the amount is `x[X1][4:0]`. -/
def execRot32r (s : State) : Host.Outcome State Fault Refusal :=
  .next (s.complete (.one (zext64 (rot32 (lowHalf s.eng.x0) (amount32 s.eng.x1)))))

/-- `SHMIX` (R103). -/
def execShmix (s : State) : Host.Outcome State Fault Refusal :=
  .next (s.complete (.one (shiftMix s.eng.x0)))

/-- `FOLD` (R104): the multiplier is KMUL. -/
def execFold (s : State) : Host.Outcome State Fault Refusal :=
  .next (s.complete (.one (fold2 s.cfg s.eng.x0 s.eng.x1)))

/-- `FOLDM` (R105): the multiplier is X2, unchecked. -/
def execFoldm (s : State) : Host.Outcome State Fault Refusal :=
  .next (s.complete (.one (fold s.eng.x0 s.eng.x1 s.eng.x2)))

/-- `WMIX` (R111): buffer check, offset check of 32 bytes at `x[X2]`, then WeakMix of the four words there. -/
def execWmix (s : State) : Host.Outcome State Fault Refusal :=
  if s.bufferCheckFails || s.offsetCheckFails s.eng.x2 32 then .next (s.raise .invalidArgument)
  else
    let b := s.buffer
    let o := s.eng.x2.toNat
    let r := weakMix (b.f64 o) (b.f64 (o + 8)) (b.f64 (o + 16)) (b.f64 (o + 24)) s.eng.x0 s.eng.x1
    .next (s.complete (.two r.1 r.2))

/-- `FETCH32` (R107). -/
def execFetch32 (s : State) : Host.Outcome State Fault Refusal :=
  if s.bufferCheckFails || s.offsetCheckFails s.eng.x0 4 then .next (s.raise .invalidArgument)
  else .next (s.complete (.one (s.buffer.f32 s.eng.x0.toNat)))

/-- `FETCH64` (R109). -/
def execFetch64 (s : State) : Host.Outcome State Fault Refusal :=
  if s.bufferCheckFails || s.offsetCheckFails s.eng.x0 8 then .next (s.raise .invalidArgument)
  else .next (s.complete (.one (s.buffer.f64 s.eng.x0.toNat)))

/-- `MUR32` (R113). -/
def execMur32 (s : State) : Host.Outcome State Fault Refusal :=
  .next (s.complete (.one (zext64 (mur32 s.cfg (lowHalf s.eng.x0) (lowHalf s.eng.x1)))))

/-- `FMIX32` (R115). -/
def execFmix32 (s : State) : Host.Outcome State Fault Refusal :=
  .next (s.complete (.one (zext64 (fmix32 s.cfg (lowHalf s.eng.x0)))))

/-- `CRC64` (R117): CapabilityUnavailable when CRCSEL = NONE; the same value under HW and SW. -/
def execCrc64 (s : State) : Host.Outcome State Fault Refusal :=
  if s.crcUnavailable then .next (s.raise .capabilityUnavailable)
  else .next (s.complete (.one (zext64 (crcStep s.cfg (lowHalf s.eng.x0) s.eng.x1))))

end Sys2Proof.Machine
end

