-- ==== Sys2Proof/Machine/Dispatch.lean ====
section
/-! DEFINITION. The meaning of every command: one arm per constructor, each a direct call (spec/30_encoding.md R68). -/

namespace Sys2Proof.Machine

def exec (i : Instr) (s : State) : Host.Outcome State Fault Refusal :=
  match i with
  -- spec/41_core64.md
  | .h32 => Sys2Proof.Machine.execH32 s
  | .h64 => Sys2Proof.Machine.execH64 s
  | .h64s => Sys2Proof.Machine.execH64s s
  | .h64ss => Sys2Proof.Machine.execH64ss s
  -- spec/42_wide.md
  | .h128 => Sys2Proof.Machine.execH128 s
  | .h128s => Sys2Proof.Machine.execH128s s
  | .h256 => Sys2Proof.Machine.execH256 s
  -- spec/43_crc.md
  | .h128c => Sys2Proof.Machine.execH128c s
  | .capq => Sys2Proof.Machine.execCapq s
  -- spec/40_primitives.md
  | .rot64i sh => Sys2Proof.Machine.execRot64i sh s
  | .rot64r => Sys2Proof.Machine.execRot64r s
  | .rot32i sh => Sys2Proof.Machine.execRot32i sh s
  | .rot32r => Sys2Proof.Machine.execRot32r s
  | .shmix => Sys2Proof.Machine.execShmix s
  | .fold => Sys2Proof.Machine.execFold s
  | .foldm => Sys2Proof.Machine.execFoldm s
  | .wmix => Sys2Proof.Machine.execWmix s
  | .fetch32 => Sys2Proof.Machine.execFetch32 s
  | .fetch64 => Sys2Proof.Machine.execFetch64 s
  | .mur32 => Sys2Proof.Machine.execMur32 s
  | .fmix32 => Sys2Proof.Machine.execFmix32 s
  | .crc64 => Sys2Proof.Machine.execCrc64 s

end Sys2Proof.Machine
end

