-- ==== Sys2Proof/Machine/HostPort.lean ====
section
/-!
DEFINITION. What each host operation does to the machine: register transactions (spec/20_memory.md R56 to R58), the
blocking CMD write that runs a command to its end (spec/30_encoding.md R64), a host store to buffer memory (R60 c), the
straps and the reset event (spec/70_reset_and_hazards.md R225 to R227).
-/

namespace Sys2Proof.Machine

/-- A write of the value `v` to CMD of the foreground engine: the command word is consumed by the write (R26); an illegal
value ends at once with IllegalCommand, whatever the registers hold (R70, R199). -/
def State.issue (s : State) (v : Word) : Host.Outcome State Fault Refusal :=
  match decode v with
  | .command i => exec i s
  | .illegal _ => .next (s.raise .illegalCommand)

/-- A host read (R58): the value is returned to the host, nothing else changes. -/
def State.hostRead (s : State) (addr size : Nat) : Host.Outcome State Fault Refusal :=
  match s.target addr size with
  | .refuse r => .refused r
  | .reg t off => .next { t with reply := .data (t.eng.readReg off) }

/-- A host write (R58): to CMD (offset 0) it issues a command and returns when the command has completed (R64); to any
other offset it is a register write, which takes effect at once (R232). -/
def State.hostWrite (s : State) (addr size : Nat) (v : Word) : Host.Outcome State Fault Refusal :=
  match s.target addr size with
  | .refuse r => .refused r
  | .reg t off =>
    if off = 0 then { t with reply := .done }.issue v
    else .next { t with reply := .done, eng := t.eng.writeReg off v }

/-- A completed host store of one byte (R45, R60 c); the address must exist (R46; log 10). -/
def State.hostStore (s : State) (addr : Nat) (b : Byte) : Host.Outcome State Fault Refusal :=
  if addr < 2 ^ s.cfg.aw then .next { s with mem := writeByte s.mem addr b, reply := .none }
  else .fault (.noSuchByte addr)

/-- One host operation. A write that reset cuts leaves the reset state whatever its address, size and value: R227 says so of a
command; for every other write, also one that uncut would be refused (R58), it is a DESIGN CHOICE (log 9). -/
def State.hostOp (s : State) (op : HostOp) : Host.Outcome State Fault Refusal :=
  match op with
  | .rd addr size => s.hostRead addr size
  | .wr addr size v => s.hostWrite addr size v
  | .store addr b => s.hostStore addr b
  | .straps p => .next { s with pins := p, reply := .none }
  | .reset => .next s.resetEvent
  | .wrCut _ _ _ => .next { s.resetEvent with reply := .abandoned }

/-- The host address of an offset in the register block of the foreground engine (R56). -/
def State.blockAddr (s : State) (off : Nat) : Nat := s.cfg.regbase.getD s.lower.length 0 + off

/-- The host write that puts a command value into CMD of the foreground engine (R26, R64). -/
def State.cmdWrite (s : State) (v : Word) : HostOp := .wr (s.blockAddr 0) 8 v

/-- One step: the host's next operation; with none pending the engine is idle and holds its registers (R217). -/
def State.advance (s : State) : Host.Outcome State Fault Refusal :=
  match s.queue with
  | [] => .next s
  | op :: rest => { s with queue := rest }.hostOp op

end Sys2Proof.Machine
end

