-- ==== Sys2Proof/Machine/Step.lean ====
section
/-!
DEFINITION. The step function: one host transaction in, new register state out (spec/30_encoding.md R64). The engine has
no program counter and fetches nothing (spec/10_state.md R22): its next instruction is the next CMD write of the host's
queue (log 6).
-/

namespace Sys2Proof.Machine

/-- One step of the machine. -/
def step (s : State) : Host.Outcome State Fault Refusal := s.advance

/-- `s` with the instruction word `w` where `step` takes its next instruction: as the host's next operation, a write of
that value to CMD of the foreground engine (log 14). -/
def State.withFetchWord (s : State) (nbits w : Nat) : State :=
  { s with queue := s.cmdWrite (tableValue nbits w) :: s.queue }

end Sys2Proof.Machine
end

