-- ==== Sys2Proof/Machine/Assembler.lean ====
section
/-!
DEFINITION. The assembler syntax in which the spec writes host programs (spec/30_encoding.md R72) and its
pseudo-instructions (R73): lines, their encoding as register transactions, and a reader of one line of text. The machine
does not depend on this file: a program is a list of host operations (log 16).
-/

namespace Sys2Proof.Machine

/-- The registers by name (spec/20_memory.md R57). -/
inductive Reg where
  /-- CMD. -/
  | cmd
  /-- STATUS. -/
  | status
  /-- CAP. -/
  | cap
  /-- PTR. -/
  | ptr
  /-- LEN. -/
  | len
  /-- SEED0. -/
  | seed0
  /-- SEED1. -/
  | seed1
  /-- X0. -/
  | x0
  /-- X1. -/
  | x1
  /-- X2. -/
  | x2
  /-- D0. -/
  | d0
  /-- D1. -/
  | d1
  /-- D2. -/
  | d2
  /-- D3. -/
  | d3
  deriving DecidableEq, Repr

/-- Offset in the register block (R57). -/
def Reg.offset : Reg → Nat
  | .cmd => 0x00
  | .status => 0x08
  | .cap => 0x10
  | .ptr => 0x20
  | .len => 0x28
  | .seed0 => 0x30
  | .seed1 => 0x38
  | .x0 => 0x40
  | .x1 => 0x48
  | .x2 => 0x50
  | .d0 => 0x60
  | .d1 => 0x68
  | .d2 => 0x70
  | .d3 => 0x78

/-- The registers a `WR` line may name: the seven operand registers (R72). -/
def Reg.operand : Reg → Bool
  | .ptr | .len | .seed0 | .seed1 | .x0 | .x1 | .x2 => true
  | .cmd | .status | .cap | .d0 | .d1 | .d2 | .d3 => false

/-- A line: one host transaction (R72). -/
inductive Line where
  /-- `WR <reg>, <value>`. -/
  | wr (r : Reg) (v : Word)
  /-- `RD <reg>`. -/
  | rd (r : Reg)
  /-- A mnemonic, with `#<sh>` for ROT64I and ROT32I. -/
  | command (i : Instr)
  deriving DecidableEq, Repr

/-- The lines the syntax has: `WR` names an operand register, a command is well formed. -/
def Line.wellFormed : Line → Bool
  | .wr r _ => r.operand
  | .rd _ => true
  | .command i => i.wellFormed

/-- The transaction a line stands for, on the foreground engine of `s` (R72). -/
def Line.hostOp (s : State) : Line → HostOp
  | .wr r v => .wr (s.blockAddr r.offset) 8 v
  | .rd r => .rd (s.blockAddr r.offset) 8
  | .command i => s.cmdWrite (hostValue i)

/-- A host program on the foreground engine, as pending operations (R72). -/
def State.load (s : State) (p : List Line) : State := { s with queue := p.map (Line.hostOp s) ++ s.queue }

/-- The pseudo-instructions (R73): one digest function call each, `p` the buffer address, `n` its length. -/
inductive Pseudo where
  /-- `HASH32 p, n`. -/
  | hash32 (p n : Word)
  /-- `HASH64 p, n`. -/
  | hash64 (p n : Word)
  /-- `HASH64S p, n, s`. -/
  | hash64s (p n s : Word)
  /-- `HASH64SS p, n, s0, s1`. -/
  | hash64ss (p n s0 s1 : Word)
  /-- `HASH128 p, n`. -/
  | hash128 (p n : Word)
  /-- `HASH128S p, n, s0, s1`. -/
  | hash128s (p n s0 s1 : Word)
  /-- `HASH256 p, n`. -/
  | hash256 (p n : Word)
  /-- `HASH128C p, n`. -/
  | hash128c (p n : Word)
  deriving DecidableEq, Repr

/-- The lines of a pseudo-instruction (R73). -/
def Pseudo.lines : Pseudo → List Line
  | .hash32 p n => [.wr .ptr p, .wr .len n, .command .h32]
  | .hash64 p n => [.wr .ptr p, .wr .len n, .command .h64]
  | .hash64s p n s => [.wr .ptr p, .wr .len n, .wr .seed0 s, .command .h64s]
  | .hash64ss p n s0 s1 => [.wr .ptr p, .wr .len n, .wr .seed0 s0, .wr .seed1 s1, .command .h64ss]
  | .hash128 p n => [.wr .ptr p, .wr .len n, .command .h128]
  | .hash128s p n s0 s1 => [.wr .ptr p, .wr .len n, .wr .seed0 s0, .wr .seed1 s1, .command .h128s]
  | .hash256 p n => [.wr .ptr p, .wr .len n, .command .h256]
  | .hash128c p n => [.wr .ptr p, .wr .len n, .command .h128c]

/-- The operand registers after the `WR` lines of a pseudo-instruction, whatever their order (R73). -/
def Pseudo.operandsIn (e : Engine) : Pseudo → Engine
  | .hash32 p n | .hash64 p n | .hash128 p n | .hash256 p n | .hash128c p n => { e with ptr := p, len := n }
  | .hash64s p n s => { e with ptr := p, len := n, seed0 := s }
  | .hash64ss p n s0 s1 | .hash128s p n s0 s1 => { e with ptr := p, len := n, seed0 := s0, seed1 := s1 }

/-- A token of a line: its characters. -/
abbrev Token := List Char

/-- The tokens of a line: white space separates, a comma is a token of its own, `;` starts a comment (R72). -/
def tokens : List Char → Token → List Token
  | [], cur => if cur = [] then [] else [cur.reverse]
  | c :: cs, cur =>
    let done : List Token := if cur = [] then [] else [cur.reverse]
    if c = ';' then done
    else if c = ',' then done ++ [','] :: tokens cs []
    else if c = ' ' ∨ c = '\t' then done ++ tokens cs []
    else tokens cs (c :: cur)

/-- The value of a digit in a base up to 16. -/
def digitValue (base : Nat) (c : Char) : Option Nat :=
  let v := if '0' ≤ c ∧ c ≤ '9' then c.toNat - '0'.toNat
    else if 'a' ≤ c ∧ c ≤ 'f' then c.toNat - 'a'.toNat + 10
    else if 'A' ≤ c ∧ c ≤ 'F' then c.toNat - 'A'.toNat + 10 else base
  if v < base then some v else none

/-- The number of a digit string read after `acc`. -/
def digitsValue (base acc : Nat) : Token → Option Nat
  | [] => some acc
  | c :: cs => (digitValue base c).bind fun d => digitsValue base (acc * base + d) cs

/-- A number: `0x` hexadecimal or decimal (R72). -/
def numberOf (t : Token) : Option Nat :=
  match t with
  | [] => none
  | '0' :: 'x' :: c :: cs => digitsValue 16 0 (c :: cs)
  | c :: cs => digitsValue 10 0 (c :: cs)

/-- The register names (R57). -/
def regNames : List (Token × Reg) :=
  [(['C', 'M', 'D'], .cmd), (['S', 'T', 'A', 'T', 'U', 'S'], .status), (['C', 'A', 'P'], .cap),
   (['P', 'T', 'R'], .ptr), (['L', 'E', 'N'], .len), (['S', 'E', 'E', 'D', '0'], .seed0),
   (['S', 'E', 'E', 'D', '1'], .seed1), (['X', '0'], .x0), (['X', '1'], .x1), (['X', '2'], .x2),
   (['D', '0'], .d0), (['D', '1'], .d1), (['D', '2'], .d2), (['D', '3'], .d3)]

/-- The mnemonics of the commands without an immediate (R68). -/
def commandNames : List (Token × Instr) :=
  [(['H', '3', '2'], .h32), (['H', '6', '4'], .h64), (['H', '6', '4', 'S'], .h64s),
   (['H', '6', '4', 'S', 'S'], .h64ss), (['H', '1', '2', '8'], .h128), (['H', '1', '2', '8', 'S'], .h128s),
   (['H', '2', '5', '6'], .h256), (['H', '1', '2', '8', 'C'], .h128c), (['C', 'A', 'P', 'Q'], .capq),
   (['R', 'O', 'T', '6', '4', 'R'], .rot64r), (['R', 'O', 'T', '3', '2', 'R'], .rot32r),
   (['S', 'H', 'M', 'I', 'X'], .shmix), (['F', 'O', 'L', 'D'], .fold), (['F', 'O', 'L', 'D', 'M'], .foldm),
   (['W', 'M', 'I', 'X'], .wmix), (['F', 'E', 'T', 'C', 'H', '3', '2'], .fetch32),
   (['F', 'E', 'T', 'C', 'H', '6', '4'], .fetch64), (['M', 'U', 'R', '3', '2'], .mur32),
   (['F', 'M', 'I', 'X', '3', '2'], .fmix32), (['C', 'R', 'C', '6', '4'], .crc64)]

/-- The commands with an immediate (R72). -/
def immediateNames : List (Token × (BitVec 6 → Instr)) :=
  [(['R', 'O', 'T', '6', '4', 'I'], .rot64i), (['R', 'O', 'T', '3', '2', 'I'], .rot32i)]

/-- The entry of a name in a table of names. -/
def lookupName {α : Type} (t : Token) : List (Token × α) → Option α
  | [] => none
  | (n, a) :: rest => if t = n then some a else lookupName t rest

/-- The line of a list of tokens, where it is one of the forms of R72. -/
def lineOfTokens (ts : List Token) : Option Line :=
  match ts with
  | [['W', 'R'], r, [','], v] =>
    match lookupName r regNames, numberOf v with
    | some r, some n => if r.operand ∧ n < 2 ^ 64 then some (.wr r (BitVec.ofNat 64 n)) else none
    | _, _ => none
  | [['R', 'D'], r] => (lookupName r regNames).map Line.rd
  | [m] => (lookupName m commandNames).map Line.command
  | [m, '#' :: v] =>
    match lookupName m immediateNames, numberOf v with
    | some f, some n =>
      let i := f (BitVec.ofNat 6 n)
      if n < 64 ∧ i.wellFormed then some (.command i) else none
    | _, _ => none
  | _ => none

/-- Read one line of assembler text, given as its characters (R72). -/
def readLine (text : List Char) : Option Line := lineOfTokens (tokens text [])

end Sys2Proof.Machine
end

