-- ==== Sys2Proof/Safety.lean ====
section
/-!
DEFINITION. What counts as a good machine state, and the two ways a command ends, spelled out field by field from the
spec, for the statements about the machine: the completion update in its success form and its error form (spec/10_state.md
R28, R29, spec/60_exceptions.md R200), and the invariant that every step keeps.
-/

namespace Sys2Proof.Machine

/-- Nothing of the operand registers and the latch changes (R29). -/
structure Engine.SameOperands (e f : Engine) : Prop where
  ptr : f.ptr = e.ptr
  len : f.len = e.len
  seed0 : f.seed0 = e.seed0
  seed1 : f.seed1 = e.seed1
  x0 : f.x0 = e.x0
  x1 : f.x1 = e.x1
  x2 : f.x2 = e.x2
  cap : f.cap = e.cap

/-- The frame of a command: of the whole machine only D0 to D3 and STATUS of the foreground engine may change. Buffer
memory reads the same at every address (R45: the engine never writes it); the other engines, the parameters, the straps,
the host's pending operations and its reply stay. -/
structure State.CommandFrame (s t : State) : Prop where
  operands : s.eng.SameOperands t.eng
  memory : ∀ a, readByte t.mem a = readByte s.mem a
  memoryList : t.mem = s.mem
  lower : t.lower = s.lower
  upper : t.upper = s.upper
  cfg : t.cfg = s.cfg
  pins : t.pins = s.pins
  queue : t.queue = s.queue
  reply : t.reply = s.reply

/-- The command of the foreground engine succeeded with `k` result words: the result registers hold `r0` to `r3`
(0 beyond the first `k`), STATUS is DONE 1, ERR 0, ECODE 0, NW k, SERR unchanged, bits 63:10 zero (R24, R28), and nothing
else changed (R29). -/
structure State.Succeeds (s t : State) (k : Nat) (r0 r1 r2 r3 : Word) : Prop where
  d0 : t.eng.d0 = r0
  d1 : t.eng.d1 = r1
  d2 : t.eng.d2 = r2
  d3 : t.eng.d3 = r3
  done : statusDone t.eng.status = true
  err : statusErr t.eng.status = false
  ecode : statusEcode t.eng.status = 0
  nw : (statusNw t.eng.status).toNat = k
  serr : statusSerr t.eng.status = statusSerr s.eng.status
  zero : statusZero t.eng.status = 0
  frame : s.CommandFrame t

/-- The command of the foreground engine ended with the error code `c`: D0 to D3 are 0, STATUS is DONE 1, ERR 1, ECODE c,
NW 0, SERR 1, bits 63:10 zero (R24, R28, R200), and nothing else changed. -/
structure State.Fails (s t : State) (c : Nat) : Prop where
  d0 : t.eng.d0 = 0
  d1 : t.eng.d1 = 0
  d2 : t.eng.d2 = 0
  d3 : t.eng.d3 = 0
  done : statusDone t.eng.status = true
  err : statusErr t.eng.status = true
  ecode : (statusEcode t.eng.status).toNat = c
  nw : statusNw t.eng.status = 0
  serr : statusSerr t.eng.status = true
  zero : statusZero t.eng.status = 0
  frame : s.CommandFrame t

/-- The buffer check of R197 passes: `p + n <= 2^AW` over the integers. -/
def State.bufferFits (s : State) : Prop := s.eng.ptr.toNat + s.eng.len.toNat ≤ 2 ^ s.cfg.aw

/-- A STATUS word the engine can hold (R24, R28): bits 63:10 zero, the codes and word counts that are produced, ERR exactly
when there is a code, no result word with an error, an error remembered in SERR, and 0 before the first command. -/
structure LegalStatus (w : Word) : Prop where
  zero : statusZero w = 0
  ecode : (statusEcode w).toNat ≤ 3
  nw : (statusNw w).toNat ∈ [0, 1, 2, 4]
  errIff : statusErr w = true ↔ statusEcode w ≠ 0
  errNw : statusDone w = true → (statusErr w = true ↔ statusNw w = 0)
  errSerr : statusErr w = true → statusSerr w = true
  fresh : statusDone w = false → w = 0

/-- A register file the engine can hold: a legal STATUS, a latch that some straps give (R226), and 0 in every result
register beyond the number of valid words (R28). -/
structure Engine.Legal (e : Engine) : Prop where
  status : LegalStatus e.status
  cap : ∃ p : Straps, e.cap = capOf p
  d0 : (statusNw e.status).toNat ≤ 0 → e.d0 = 0
  d1 : (statusNw e.status).toNat ≤ 1 → e.d1 = 0
  d2 : (statusNw e.status).toNat ≤ 2 → e.d2 = 0
  d3 : (statusNw e.status).toNat ≤ 3 → e.d3 = 0

/-- The invariant of the machine: memory in canonical form and inside the address space (R46), as many engines as register
blocks (R10, R56), every engine legal, and one latch value in all of them (R214: all sample the same straps). -/
structure State.Inv (s : State) : Prop where
  memWf : s.mem.wf
  memBound : ∀ c ∈ s.mem, c.1 < 2 ^ s.cfg.aw
  count : s.engines.length = s.cfg.neng
  legal : ∀ e ∈ s.engines, e.Legal
  oneLatch : ∀ e ∈ s.engines, e.cap = s.eng.cap

/-- Two states in which the foreground engine's next command reads the same inputs (R20): the parameters, the operand
registers, the latch, the sticky bit and the bytes of the buffer `[PTR, PTR + LEN)`. Memory outside the buffer, the other
engines, the straps, the result registers and what is left of earlier commands may differ. -/
structure State.SameInputs (s t : State) : Prop where
  cfg : t.cfg = s.cfg
  operands : s.eng.SameOperands t.eng
  serr : statusSerr t.eng.status = statusSerr s.eng.status
  bytes : ∀ i, i < s.eng.len.toNat →
    readByte t.mem (s.eng.ptr.toNat + i) = readByte s.mem (s.eng.ptr.toNat + i)

/-- Two states whose next commands read the same inputs but for the place of the buffer: each buffer fits, and the bytes of
the two are the same one by one (R49). -/
structure State.SameBytes (s t : State) : Prop where
  cfg : t.cfg = s.cfg
  len : t.eng.len = s.eng.len
  seed0 : t.eng.seed0 = s.eng.seed0
  seed1 : t.eng.seed1 = s.eng.seed1
  x0 : t.eng.x0 = s.eng.x0
  x1 : t.eng.x1 = s.eng.x1
  x2 : t.eng.x2 = s.eng.x2
  cap : t.eng.cap = s.eng.cap
  serr : statusSerr t.eng.status = statusSerr s.eng.status
  fits : s.bufferFits
  fits' : t.bufferFits
  bytes : ∀ i, i < s.eng.len.toNat →
    readByte t.mem (t.eng.ptr.toNat + i) = readByte s.mem (s.eng.ptr.toNat + i)

/-- The result words and STATUS of the foreground engines agree. -/
structure State.SameResult (s t : State) : Prop where
  d0 : t.eng.d0 = s.eng.d0
  d1 : t.eng.d1 = s.eng.d1
  d2 : t.eng.d2 = s.eng.d2
  d3 : t.eng.d3 = s.eng.d3
  status : t.eng.status = s.eng.status

/-- `t` is `s` with the host's next operation, a register transaction with engine `j`, taken off the queue: engine `j` is in
the foreground, `rest` is pending, the host is answered `r`; no register of any engine, no byte of memory, no parameter and no
strap has changed. -/
structure State.Accepts (s : State) (j : Nat) (rest : List HostOp) (r : Reply) (t : State) : Prop where
  engines : t.engines = s.engines
  front : t.lower.length = j
  eng : s.engines[j]? = some t.eng
  queue : t.queue = rest
  reply : t.reply = r
  mem : t.mem = s.mem
  cfg : t.cfg = s.cfg
  pins : t.pins = s.pins

/-- The opcodes of R68. -/
def assignedOpcodes : List (BitVec 8) :=
  [0x10, 0x11, 0x12, 0x13, 0x14, 0x15, 0x16, 0x17, 0x18,
   0x20, 0x21, 0x22, 0x23, 0x24, 0x25, 0x26, 0x27, 0x28, 0x29, 0x2A, 0x2B, 0x2C]

/-- The written values that R70 calls illegal: bits 63:14 not all 0; an OPC not in R68; a non-zero SH in a command other than
ROT64I and ROT32I; `SH >= 32` in ROT32I. -/
def IllegalValue (v : Word) : Prop :=
  v >>> 14 ≠ 0 ∨ v.extractLsb' 0 8 ∉ assignedOpcodes
    ∨ (v.extractLsb' 8 6 ≠ 0 ∧ v.extractLsb' 0 8 ≠ 0x20 ∧ v.extractLsb' 0 8 ≠ 0x22)
    ∨ (v.extractLsb' 0 8 = 0x22 ∧ (v.extractLsb' 8 6).toNat ≥ 32)

/-- The legal command words of a command without an immediate (R69 a). -/
def plainWords : List (Word × Instr) :=
  [(0x10, .h32), (0x11, .h64), (0x12, .h64s), (0x13, .h64ss), (0x14, .h128), (0x15, .h128s), (0x16, .h256),
   (0x17, .h128c), (0x18, .capq), (0x21, .rot64r), (0x23, .rot32r), (0x24, .shmix), (0x25, .fold), (0x26, .foldm),
   (0x27, .wmix), (0x28, .fetch32), (0x29, .fetch64), (0x2A, .mur32), (0x2B, .fmix32), (0x2C, .crc64)]

/-- The commands that read the buffer (R54). -/
def readsBuffer : List Instr :=
  [.h32, .h64, .h64s, .h64ss, .h128, .h128s, .h256, .h128c, .fetch32, .fetch64, .wmix]

/-- The offsets of the operand registers that a command reads: its row of R68, column "reads" (R74). -/
def operandsRead : Instr → List Nat
  | .h32 | .h64 | .h128 | .h256 | .h128c => [0x20, 0x28]
  | .h64s => [0x20, 0x28, 0x30]
  | .h64ss | .h128s => [0x20, 0x28, 0x30, 0x38]
  | .capq => []
  | .rot64i _ | .rot32i _ | .shmix | .fmix32 => [0x40]
  | .rot64r | .rot32r | .fold | .mur32 | .crc64 => [0x40, 0x48]
  | .foldm => [0x40, 0x48, 0x50]
  | .wmix => [0x20, 0x28, 0x40, 0x48, 0x50]
  | .fetch32 | .fetch64 => [0x20, 0x28, 0x40]

/-- The commands that read the capability latch: CRCSEL or HWCRC in column "reads" of R68. -/
def readsLatch : List Instr := [.h128c, .capq, .crc64]

/-- The machine after `k` steps, or the fault or refusal that ends them. -/
def stepsFrom : Nat → State → Host.Outcome State Fault Refusal
  | 0, s => .next s
  | k + 1, s =>
    match step s with
    | .next t => stepsFrom k t
    | .fault f => .fault f
    | .refused r => .refused r

/-- The offsets of the operand registers, the only ones a host write changes (R21). -/
def operandOffsets : List Nat := [0x20, 0x28, 0x30, 0x38, 0x40, 0x48, 0x50]

/-- The register map as a host read shows it (R57): offset and value; every other offset reads 0. -/
def Engine.registerMap (e : Engine) : List (Nat × Word) :=
  [(0x08, e.status), (0x10, e.cap), (0x20, e.ptr), (0x28, e.len), (0x30, e.seed0), (0x38, e.seed1), (0x40, e.x0),
   (0x48, e.x1), (0x50, e.x2), (0x60, e.d0), (0x68, e.d1), (0x70, e.d2), (0x78, e.d3)]

/-- The operation is the reset event, alone or cutting a write (R225, R227). -/
def HostOp.isReset : HostOp → Bool
  | .reset => true
  | .wrCut _ _ _ => true
  | .rd _ _ | .wr _ _ _ | .store _ _ | .straps _ => false

/-- The steps of Fold (R90) over the integers: `r` is the fold of `u` and `v` under the multiplier `m`. -/
def FoldSteps (u v m r : Word) : Prop :=
  ∃ a b : Word, a.toNat = (u ^^^ v).toNat * m.toNat % 2 ^ 64
    ∧ b.toNat = (v ^^^ (a ^^^ (a >>> 47))).toNat * m.toNat % 2 ^ 64
    ∧ r.toNat = (b ^^^ (b >>> 47)).toNat * m.toNat % 2 ^ 64

/-- The steps of WeakMix (R92) over the integers. -/
def WeakMixSteps (w x y z a b p q : Word) : Prop :=
  ∃ b1 a1 : Word, b1.toNat = (b.toNat + a.toNat + w.toNat + z.toNat) % 2 ^ 64
    ∧ a1.toNat = (a.toNat + w.toNat + x.toNat + y.toNat) % 2 ^ 64
    ∧ p.toNat = (a.toNat + w.toNat + x.toNat + y.toNat + z.toNat) % 2 ^ 64
    ∧ q.toNat = ((rot64 b1 21).toNat + (rot64 a1 44).toNat + (a.toNat + w.toNat)) % 2 ^ 64

/-- The steps of Mur32 (R93) over the integers. -/
def Mur32Steps (c : Config) (a h r : Half) : Prop :=
  ∃ a1 a2 : Half, a1.toNat = a.toNat * c.c1.toNat % 2 ^ 32
    ∧ a2.toNat = (rot32 a1 17).toNat * c.c2.toNat % 2 ^ 32
    ∧ r.toNat = ((rot32 (h ^^^ a2) 19).toNat * 5 + c.c3.toNat) % 2 ^ 32

/-- The steps of Fmix32 (R94) over the integers. -/
def Fmix32Steps (c : Config) (h r : Half) : Prop :=
  ∃ h1 h2 : Half, h1.toNat = (h ^^^ (h >>> 16)).toNat * c.f1.toNat % 2 ^ 32
    ∧ h2.toNat = (h1 ^^^ (h1 >>> 13)).toNat * c.f2.toNat % 2 ^ 32
    ∧ r = h2 ^^^ (h2 >>> 16)

/-- The value of `v`, of `width` bits, rotated right by `s` (R86, R87), over the integers: the quotient, with the remainder
moved to the top. -/
def rotRight (width v s : Nat) : Nat := v / 2 ^ s + v % 2 ^ s * 2 ^ (width - s)

/-- The steps of Absorb8 (R96) over the integers. -/
def Absorb8Steps (c : Config) (acc w r : Word) : Prop :=
  ∃ p q : Word, p.toNat = w.toNat * c.k1.toNat % 2 ^ 64
    ∧ q.toNat = (p ^^^ (p >>> 47)).toNat * c.k1.toNat % 2 ^ 64
    ∧ r.toNat = (acc ^^^ q).toNat * c.k1.toNat % 2 ^ 64

/-- The steps of Absorb16 (R133) over the integers, with the amounts 33 and 29. -/
def Absorb16Steps (c : Config) (u v w0 w1 u2 v2 : Word) : Prop :=
  ∃ u1 v1 : Word, Absorb8Steps c u w0 u1 ∧ v1.toNat = rotRight 64 v.toNat 33 ^^^ u1.toNat
    ∧ Absorb8Steps c v1 w1 v2 ∧ u2.toNat = rotRight 64 u1.toNat 29 ^^^ v2.toNat

/-- The steps of CrcStep (R95): 64 halvings of the 64-bit value, the polynomial xored in after each odd value. -/
def CrcSteps (c : Config) (e : Half) (w : Word) (r : Half) : Prop :=
  ∃ x : Nat → Word, x 0 = e.setWidth 64 ^^^ w
    ∧ (∀ k, k < 64 → (x (k + 1)).toNat =
        if (x k).toNat % 2 = 1 then (x k).toNat / 2 ^^^ c.poly.toNat else (x k).toNat / 2)
    ∧ r.toNat = (x 64).toNat % 2 ^ 32

end Sys2Proof.Machine
end

