-- ==== Sys2Proof/Certificates/Slice0/Obligations.lean ====
section
/-!
DEFINITION. The statements for the provers, from the numbered rules of spec/, file by file. Each docstring says which rule
it formalises. The predicates `Succeeds`, `Fails`, `CommandFrame`, `Accepts`, `SameInputs`, `Inv` and the step-by-step forms
`FoldSteps`, `WeakMixSteps`, `Mur32Steps`, `Fmix32Steps`, `Absorb8Steps`, `Absorb16Steps`, `CrcSteps` are spelled out field by
field in Sys2Proof/Safety.lean.
-/

open Sys2Proof Sys2Proof.Machine

/-! ### Encoding (spec/30_encoding.md) -/

/-- R66 to R69: the decoder gives back every well-formed command from the value a host writes for it. -/
def Obligations.DecodeEncodeRoundTrip : Prop :=
  ∀ i : Instr, i.wellFormed = true → decode (hostValue i) = .command i

/-- R69: exactly which written values are which command (the high half of the value being 0, R26). -/
def Obligations.LegalCommandWords : Prop :=
  ∀ w : Word,
    (∀ p ∈ plainWords, decode w = .command p.2 ↔ w = p.1)
    ∧ (∀ sh : BitVec 6, decode w = .command (.rot64i sh) ↔
        w &&& 0xFFFFFFFFFFFFC0FF = 0x20 ∧ sh = w.extractLsb' 8 6)
    ∧ (∀ sh : BitVec 6, decode w = .command (.rot32i sh) ↔
        w &&& 0xFFFFFFFFFFFFE0FF = 0x22 ∧ sh = (w.extractLsb' 8 5).setWidth 6)

/-- R70, R199: a value written to CMD that R70 calls illegal ends at once with IllegalCommand, in every state. -/
def Obligations.IllegalValuesEndWithIllegalCommand : Prop :=
  ∀ (s : State) (a j : Nat) (v : Word) (rest : List HostOp),
    s.queue = .wr a 8 v :: rest → Config.locate s.cfg a = some (j, 0) → j < s.engines.length → IllegalValue v →
    ∃ t u, s.Accepts j rest .done t ∧ step s = .next u ∧ t.Fails u 3

/-- A few words of the encoding vectors of spec/95_test_vectors.md section 3, one of each family. -/
def Obligations.VectorWordsDecode : Prop :=
  decode 0x0000000000000011 = .command .h64 ∧ decode 0x0000000000000016 = .command .h256
    ∧ decode 0x0000000000000018 = .command .capq ∧ decode 0x0000000000003f20 = .command (.rot64i 63)
    ∧ decode 0x0000000000001f22 = .command (.rot32i 31) ∧ decode 0x000000000000002c = .command .crc64

/-! ### The step and the host port (spec/10_state.md, spec/20_memory.md) -/

/-- R64: when the host's next operation writes a legal command value to CMD of an engine, the step is `exec` of that
command on the state in which that engine is in the foreground, the operation is off the queue and the write is answered. -/
def Obligations.StepRunsDecodedCommand : Prop :=
  ∀ (s : State) (a j : Nat) (v : Word) (rest : List HostOp) (i : Instr),
    s.queue = .wr a 8 v :: rest → Config.locate s.cfg a = some (j, 0) → j < s.engines.length →
    decode v = .command i →
    ∃ t, s.Accepts j rest .done t ∧ step s = exec i t

/-- R217: between commands an engine is idle and holds its registers; that a step with nothing pending changes nothing is the
model's form of it (log 6). -/
def Obligations.IdleStepChangesNothing : Prop :=
  ∀ s : State, s.queue = [] → step s = .next s

/-- R26, R27, R57, R58: a host read returns the register at its offset, 0 for CMD and every reserved offset, and changes no
register of any engine. -/
def Obligations.HostReadReturnsRegister : Prop :=
  ∀ (s : State) (a j off : Nat) (rest : List HostOp),
    s.queue = .rd a 8 :: rest → Config.locate s.cfg a = some (j, off) → off % 8 = 0 → j < s.engines.length →
    ∃ t, step s = .next t ∧ s.Accepts j rest (.data ((t.eng.registerMap.lookup off).getD 0)) t

/-- R21, R24, R25, R27, R232: a host write to an offset other than CMD gives the operand register at that offset the value, and
is ignored at every other offset; no other register of any engine, no byte of memory, parameter or strap changes. -/
def Obligations.HostWriteSetsOperandRegister : Prop :=
  ∀ (s : State) (a j off : Nat) (v : Word) (rest : List HostOp),
    s.queue = .wr a 8 v :: rest → Config.locate s.cfg a = some (j, off) → off % 8 = 0 → off ≠ 0 →
    j < s.engines.length →
    ∃ t e, step s = .next t ∧ s.engines[j]? = some e ∧ t.engines = s.engines.set j t.eng ∧ t.lower.length = j
      ∧ t.queue = rest ∧ t.reply = .done ∧ t.mem = s.mem ∧ t.cfg = s.cfg ∧ t.pins = s.pins
      ∧ ∀ o, (t.eng.registerMap.lookup o).getD 0 =
          if o = off ∧ off ∈ operandOffsets then v else (e.registerMap.lookup o).getD 0

/-- R58: a narrower, wider or misaligned access to a register block is refused; so is an access to no register block (log 8). -/
def Obligations.OddHostAccessesAreRefused : Prop :=
  ∀ (s : State) (a size : Nat) (v : Word) (rest : List HostOp) (op : HostOp),
    op = .rd a size ∨ op = .wr a size v → s.queue = op :: rest →
    (∀ j off, Config.locate s.cfg a = some (j, off) → size ≠ 8 ∨ off % 8 ≠ 0 →
      step s = .refused (.notWholeRegister a size))
    ∧ (Config.locate s.cfg a = none → step s = .refused (.noRegisterBlock a))

/-- R56: with blocks that do not overlap, an address names an engine and an offset exactly when it is that offset of that
engine's block (blocks of `blockBytes` bytes: log 7). -/
def Obligations.HostAddressNamesOneRegister : Prop :=
  ∀ (c : Config) (a j off : Nat), c.wellFormed = true →
    (Config.locate c a = some (j, off) ↔ ∃ base, c.regbase[j]? = some base ∧ a = base + off ∧ off < c.blockBytes)

/-- R45, R46, R60 (c): a host store puts its byte at its address and leaves every other byte, every register and the
canonical form of memory alone; a store at or above 2^AW, where no byte exists, faults (log 10). -/
def Obligations.HostStoreWritesOneByte : Prop :=
  ∀ (s : State) (a : Nat) (b : Byte) (rest : List HostOp), s.queue = .store a b :: rest → s.mem.wf →
    (a < 2 ^ s.cfg.aw → ∃ t, step s = .next t ∧ t.mem.wf ∧ t.engines = s.engines ∧ t.queue = rest ∧ t.cfg = s.cfg
      ∧ t.pins = s.pins ∧ ∀ x, readByte t.mem x = if x = a then b else readByte s.mem x)
    ∧ (2 ^ s.cfg.aw ≤ a → step s = .fault (.noSuchByte a))

/-- R47, R48: a fetch of k bytes at any offset has the byte at the lowest address least significant, and the widths agree with
one another. -/
def Obligations.FetchesAreLittleEndian : Prop :=
  ∀ (b : Buffer) (o : Nat),
    (∀ k, k < 8 → (b.f64 o).extractLsb' (8 * k) 8 = readByte b.mem (b.base + o + k))
    ∧ (∀ k, k < 4 → (b.f32 o).extractLsb' (8 * k) 8 = readByte b.mem (b.base + o + k))
    ∧ (b.f64 o).extractLsb' 0 32 = (b.f32 o).extractLsb' 0 32
    ∧ (b.f64 o).extractLsb' 32 32 = (b.f32 (o + 4)).extractLsb' 0 32
    ∧ (b.f32 o).extractLsb' 32 32 = 0
    ∧ b.byteAt o = (readByte b.mem (b.base + o)).setWidth 64

/-! ### Reset and the capability latch (spec/70_reset_and_hazards.md, spec/43_crc.md) -/

/-- R225, R226, R227, R228: the reset event, also when it cuts a write, leaves in every engine every operand and result
register 0, STATUS 0 and the latch the straps give; memory, parameters and straps stay. That a cut write which is no command, or
no whole register (R58), also leaves that state is the model's choice (log 9). -/
def Obligations.ResetClearsEveryEngine : Prop :=
  ∀ (s : State) (op : HostOp) (rest : List HostOp), op.isReset = true → s.queue = op :: rest →
    ∃ t, step s = .next t ∧ t.engines.length = s.engines.length ∧ t.mem = s.mem ∧ t.cfg = s.cfg ∧ t.pins = s.pins
      ∧ t.queue = rest
      ∧ ∀ e ∈ t.engines, e.ptr = 0 ∧ e.len = 0 ∧ e.seed0 = 0 ∧ e.seed1 = 0 ∧ e.x0 = 0 ∧ e.x1 = 0 ∧ e.x2 = 0
        ∧ e.d0 = 0 ∧ e.d1 = 0 ∧ e.d2 = 0 ∧ e.d3 = 0 ∧ e.status = 0 ∧ e.cap = capOf s.pins

/-- R226, R176: the fields of the latch, from the straps. -/
def Obligations.LatchFieldsFromStraps : Prop :=
  ∀ p : Straps,
    capHwcrc (capOf p) = (if p.capOvrEn then p.capOvrVal else p.hwcrcProbe)
    ∧ capSwfb (capOf p) = p.swfbEn ∧ capOvr (capOf p) = p.capOvrEn
    ∧ capCrcsel (capOf p) = (if capHwcrc (capOf p) then 1 else if p.swfbEn then 2 else 0)
    ∧ capZero (capOf p) = 0

/-- R187, R226: no command, host write or other operation but reset changes the latch of any engine; reset sets it from the
straps as they are then. A change of the straps (an operation of the host, log 17) takes the new levels and changes no register
of any engine, no byte of memory and no parameter; no other operation changes the straps. -/
def Obligations.LatchChangesOnlyAtReset : Prop :=
  ∀ (s : State) (op : HostOp) (rest : List HostOp), s.queue = op :: rest →
    (∀ t, step s = .next t →
      (op.isReset = false → t.engines.map Engine.cap = s.engines.map Engine.cap)
      ∧ (op.isReset = true → ∀ e ∈ t.engines, e.cap = capOf s.pins)
      ∧ ((∀ p, op ≠ .straps p) → t.pins = s.pins))
    ∧ ∀ p, op = .straps p → ∃ t, step s = .next t ∧ t.pins = p ∧ t.engines = s.engines
      ∧ t.lower.length = s.lower.length ∧ t.mem = s.mem ∧ t.cfg = s.cfg ∧ t.queue = rest

/-- R24, R208: the sticky error bit of an engine stays set through every operation but reset, which clears it. -/
def Obligations.StickyErrorClearedOnlyByReset : Prop :=
  ∀ (s t : State) (op : HostOp) (rest : List HostOp) (k : Nat) (e f : Engine),
    s.queue = op :: rest → step s = .next t → s.engines[k]? = some e → t.engines[k]? = some f →
    (op.isReset = false → statusSerr e.status = true → statusSerr f.status = true)
    ∧ (op.isReset = true → statusSerr f.status = false)

/-! ### Every command (spec/10_state.md R28, R29, spec/60_exceptions.md) -/

/-- R28, R29: every command, in every state, ends in a next state by one completion update, in the success form with 1, 2 or 4
result words and zeros beyond them, or in the error form with one of the three codes; nothing else changes. -/
def Obligations.EveryCommandEndsInOneUpdate : Prop :=
  ∀ (i : Instr) (s : State), ∃ t, exec i s = .next t ∧
    ((∃ k r0 r1 r2 r3, k ∈ [1, 2, 4] ∧ (k ≤ 1 → r1 = 0) ∧ (k ≤ 2 → r2 = 0 ∧ r3 = 0) ∧ s.Succeeds t k r0 r1 r2 r3)
      ∨ ∃ c ∈ [1, 2, 3], s.Fails t c)

/-- R203, with R197, R198, R201, R204: which error a value written to CMD ends with, the first that holds in the order of R203,
and none otherwise (ECODE 0). -/
def Obligations.ErrorPriority : Prop :=
  ∀ (s : State) (v : Word), ∃ t, s.issue v = .next t
    ∧ (IllegalValue v → (statusEcode t.eng.status).toNat = 3)
    ∧ (¬ IllegalValue v → (statusEcode t.eng.status).toNat =
      if (v = 0x17 ∨ v = 0x2C) ∧ capCrcsel s.eng.cap = 0 then 2
      else if v ∈ [0x10, 0x11, 0x12, 0x13, 0x14, 0x15, 0x16, 0x17, 0x27, 0x28, 0x29]
          ∧ s.eng.ptr.toNat + s.eng.len.toNat > 2 ^ s.cfg.aw then 1
      else if (v = 0x28 ∧ s.eng.x0.toNat + 4 > s.eng.len.toNat) ∨ (v = 0x29 ∧ s.eng.x0.toNat + 8 > s.eng.len.toNat)
          ∨ (v = 0x27 ∧ s.eng.x2.toNat + 32 > s.eng.len.toNat) then 1
      else 0)

/-- R177, R201: H128C and CRC64 end with CapabilityUnavailable when CRCSEL is NONE, whatever the operands; no other command ever
does, and these two only then. -/
def Obligations.CapabilityErrorExactlyWhenNone : Prop :=
  ∀ (s : State) (i : Instr),
    (i = .h128c ∨ i = .crc64 → capCrcsel s.eng.cap = 0 → ∃ t, exec i s = .next t ∧ s.Fails t 2)
    ∧ ((i ≠ .h128c ∧ i ≠ .crc64) ∨ capCrcsel s.eng.cap ≠ 0 →
        ∃ t, exec i s = .next t ∧ (statusEcode t.eng.status).toNat ≠ 2)

/-- R197, R198: a command that reads the buffer ends with InvalidArgument when the buffer does not fit (H128C if CRCSEL is not
NONE), and FETCH32, FETCH64 and WMIX also when the offset reaches past the buffer. -/
def Obligations.BadBufferOrOffsetIsInvalidArgument : Prop :=
  ∀ (s : State) (i : Instr),
    (i ∈ readsBuffer → (i = .h128c → capCrcsel s.eng.cap ≠ 0) →
      s.eng.ptr.toNat + s.eng.len.toNat > 2 ^ s.cfg.aw → ∃ t, exec i s = .next t ∧ s.Fails t 1)
    ∧ (s.eng.x0.toNat + 4 > s.eng.len.toNat → ∃ t, exec .fetch32 s = .next t ∧ s.Fails t 1)
    ∧ (s.eng.x0.toNat + 8 > s.eng.len.toNat → ∃ t, exec .fetch64 s = .next t ∧ s.Fails t 1)
    ∧ (s.eng.x2.toNat + 32 > s.eng.len.toNat → ∃ t, exec .wmix s = .next t ∧ s.Fails t 1)

/-! ### Primitive commands (spec/40_primitives.md) -/

/-- R86, R99, R100: bit k of the result of ROT64I and ROT64R is bit (k + s) mod 64 of X0, `s` being SH or X1[5:0]. -/
def Obligations.Rot64CommandsRotateRight : Prop :=
  ∀ (s : State) (sh : BitVec 6),
    (∃ t r, exec (.rot64i sh) s = .next t ∧ s.Succeeds t 1 r 0 0 0
      ∧ ∀ k, k < 64 → r.getLsbD k = s.eng.x0.getLsbD ((k + sh.toNat) % 64))
    ∧ (∃ t r, exec .rot64r s = .next t ∧ s.Succeeds t 1 r 0 0 0
      ∧ ∀ k, k < 64 → r.getLsbD k = s.eng.x0.getLsbD ((k + s.eng.x1.toNat % 64) % 64))

/-- R87, R101, R102: bit k < 32 of the result of ROT32I and ROT32R is bit (k + s) mod 32 of X0, the upper half is 0; ROT32I with
SH of 32 or more ends with IllegalCommand. -/
def Obligations.Rot32CommandsRotateRight : Prop :=
  ∀ (s : State) (sh : BitVec 6),
    (sh.toNat ≤ 31 → ∃ t r, exec (.rot32i sh) s = .next t ∧ s.Succeeds t 1 r 0 0 0
      ∧ ∀ k, k < 64 → r.getLsbD k = (decide (k < 32) && s.eng.x0.getLsbD ((k + sh.toNat) % 32)))
    ∧ (32 ≤ sh.toNat → ∃ t, exec (.rot32i sh) s = .next t ∧ s.Fails t 3)
    ∧ (∃ t r, exec .rot32r s = .next t ∧ s.Succeeds t 1 r 0 0 0
      ∧ ∀ k, k < 64 → r.getLsbD k = (decide (k < 32) && s.eng.x0.getLsbD ((k + s.eng.x1.toNat % 32) % 32)))

/-- R88, R103: SHMIX xors the 17 most significant bits of X0 into its 17 least significant bits and leaves bits 63:17. -/
def Obligations.ShmixXorsTopBitsIntoLowBits : Prop :=
  ∀ s : State, ∃ t r, exec .shmix s = .next t ∧ s.Succeeds t 1 r 0 0 0
    ∧ (∀ k, k < 17 → r.getLsbD k = xor (s.eng.x0.getLsbD k) (s.eng.x0.getLsbD (k + 47)))
    ∧ (∀ k, 17 ≤ k → k < 64 → r.getLsbD k = s.eng.x0.getLsbD k)

/-- R90, R91, R104, R105: FOLD and FOLDM compute the three multiplications and two xor-shifts of Fold, with KMUL and with X2. -/
def Obligations.FoldCommandsMultiplyFold : Prop :=
  ∀ s : State,
    (∃ t r, exec .fold s = .next t ∧ s.Succeeds t 1 r 0 0 0 ∧ FoldSteps s.eng.x0 s.eng.x1 s.cfg.kmul r)
    ∧ (∃ t r, exec .foldm s = .next t ∧ s.Succeeds t 1 r 0 0 0 ∧ FoldSteps s.eng.x0 s.eng.x1 s.eng.x2 r)

/-- R92, R111: WMIX, when the buffer fits and X2 + 32 <= LEN, mixes the four words at offset X2 into X0 and X1. -/
def Obligations.WmixMixesFourBufferWords : Prop :=
  ∀ s : State, s.bufferFits → s.eng.x2.toNat + 32 ≤ s.eng.len.toNat →
    ∃ t p q, exec .wmix s = .next t ∧ s.Succeeds t 2 p q 0 0
      ∧ WeakMixSteps (s.buffer.f64 s.eng.x2.toNat) (s.buffer.f64 (s.eng.x2.toNat + 8))
          (s.buffer.f64 (s.eng.x2.toNat + 16)) (s.buffer.f64 (s.eng.x2.toNat + 24)) s.eng.x0 s.eng.x1 p q

/-- R107, R109: FETCH32 and FETCH64, when the buffer fits and the offset X0 leaves room, return the 4 or 8 bytes at offset X0,
the lowest address least significant, zero above. -/
def Obligations.FetchCommandsReturnBufferBytes : Prop :=
  ∀ s : State, s.bufferFits →
    (s.eng.x0.toNat + 4 ≤ s.eng.len.toNat → ∃ t r, exec .fetch32 s = .next t ∧ s.Succeeds t 1 r 0 0 0
      ∧ ∀ k, k < 8 → r.extractLsb' (8 * k) 8 =
          if k < 4 then readByte s.mem (s.eng.ptr.toNat + s.eng.x0.toNat + k) else 0)
    ∧ (s.eng.x0.toNat + 8 ≤ s.eng.len.toNat → ∃ t r, exec .fetch64 s = .next t ∧ s.Succeeds t 1 r 0 0 0
      ∧ ∀ k, k < 8 → r.extractLsb' (8 * k) 8 = readByte s.mem (s.eng.ptr.toNat + s.eng.x0.toNat + k))

/-- R93, R94, R113, R115: MUR32 and FMIX32 compute the 32-bit mix and finaliser of the low halves of their operands. -/
def Obligations.Mur32AndFmix32Commands : Prop :=
  ∀ s : State,
    (∃ t r, exec .mur32 s = .next t ∧ s.Succeeds t 1 (r.setWidth 64) 0 0 0
      ∧ Mur32Steps s.cfg (s.eng.x0.extractLsb' 0 32) (s.eng.x1.extractLsb' 0 32) r)
    ∧ (∃ t r, exec .fmix32 s = .next t ∧ s.Succeeds t 1 (r.setWidth 64) 0 0 0
      ∧ Fmix32Steps s.cfg (s.eng.x0.extractLsb' 0 32) r)

/-- R117: CRC64, when CRCSEL is not NONE, returns CrcStep of the remainder X0[31:0] and the word X1, zero-extended. -/
def Obligations.Crc64AdvancesRemainder : Prop :=
  ∀ s : State, capCrcsel s.eng.cap ≠ 0 → ∃ t, exec .crc64 s = .next t
    ∧ s.Succeeds t 1 ((crcStep s.cfg (s.eng.x0.extractLsb' 0 32) s.eng.x1).setWidth 64) 0 0 0

/-- R95: CrcStep equals its byte-wise form, for every polynomial. -/
def Obligations.CrcStepEqualsByteWiseForm : Prop :=
  ∀ (c : Config) (e : Half) (w : Word), crcStep c e w = crcStepBytes c e w

/-- R95: CrcStep is linear over GF(2) and maps (0, 0) to 0. -/
def Obligations.CrcStepIsLinear : Prop :=
  ∀ (c : Config) (e : Half) (w : Word),
    crcStep c e w = crcStep c e 0 ^^^ crcStep c 0 w ∧ crcStep c 0 0 = 0

/-- R88: ShiftMix is a bijection on 64-bit words. -/
def Obligations.ShiftMixIsBijective : Prop := Function.Bijective shiftMix

/-- R94: Fmix32 is a bijection on 32-bit words, with Fmix32(0) = 0, for odd F1 and F2 (as the defaults of R6 are;
the premise is the model's, log 15). -/
def Obligations.Fmix32IsBijective : Prop :=
  ∀ c : Config, c.f1.toNat % 2 = 1 → c.f2.toNat % 2 = 1 → Function.Bijective (fmix32 c) ∧ fmix32 c 0 = 0

/-- R140: for a fixed second operand and an odd multiplier Fold is a bijection in its first operand; R90: its zero cases. -/
def Obligations.FoldIsBijectiveInFirstOperand : Prop :=
  ∀ v mul : Word, (oddWord mul = true → Function.Bijective fun u => fold u v mul)
    ∧ fold 0 0 mul = 0 ∧ ∀ u, fold u v 0 = 0

/-- R96, R133: Absorb8 and Absorb16 follow their steps, spelled out over the integers; with K1 odd, Absorb8 is a bijection in each
argument, and Absorb16 a bijection of the accumulators for fixed words and of the words for fixed accumulators. -/
def Obligations.AbsorbersAreBijective : Prop :=
  ∀ c : Config,
    (∀ acc w, Absorb8Steps c acc w (absorb8 c acc w))
    ∧ (∀ u v w0 w1, Absorb16Steps c u v w0 w1 (absorb16 c u v w0 w1).1 (absorb16 c u v w0 w1).2)
    ∧ (oddWord c.k1 = true →
      (∀ acc, Function.Bijective fun w => absorb8 c acc w) ∧ (∀ w, Function.Bijective fun acc => absorb8 c acc w)
      ∧ (∀ w0 w1, Function.Bijective fun p : Word × Word => absorb16 c p.1 p.2 w0 w1)
      ∧ (∀ u v, Function.Bijective fun p : Word × Word => absorb16 c u v p.1 p.2))

/-! ### The 64-bit core (spec/41_core64.md) -/

/-- R143, R145, R147, R149: the four digest commands, when the buffer fits, with their seeds; H32 reduces the H64 value. -/
def Obligations.CoreDigestCommands : Prop :=
  ∀ s : State, s.bufferFits →
    (∃ t, exec .h64 s = .next t
      ∧ s.Succeeds t 1 (core64 s.cfg s.buffer s.cfg.ds64x0 s.cfg.ds64x1) 0 0 0)
    ∧ (∃ t, exec .h64s s = .next t
      ∧ s.Succeeds t 1 (core64 s.cfg s.buffer s.eng.seed0 s.cfg.ds64x1) 0 0 0)
    ∧ (∃ t, exec .h64ss s = .next t
      ∧ s.Succeeds t 1 (core64 s.cfg s.buffer s.eng.seed0 s.eng.seed1) 0 0 0)
    ∧ (∃ t h m f, exec .h32 s = .next t ∧ h = core64 s.cfg s.buffer s.cfg.ds64x0 s.cfg.ds64x1
      ∧ Mur32Steps s.cfg (h.extractLsb' 32 32) (h.extractLsb' 0 32) m ∧ Fmix32Steps s.cfg m f
      ∧ s.Succeeds t 1 (f.setWidth 64) 0 0 0)

/-- R126, R127, R128 to R131: the digest of a buffer of 0, 1 to 3, 4 to 7 and 8 to 16 bytes, from its bytes. -/
def Obligations.CoreShortBuckets : Prop :=
  ∀ (c : Config) (b : Buffer) (s0 s1 : Word),
    let m : Word := BitVec.ofNat 64 (c.k2.toNat + 2 * b.len)
    let byte : Nat → Nat := fun i => (readByte b.mem (b.base + i)).toNat
    (b.len = 0 → core64 c b s0 s1 = fold s0 s1 c.k2)
    ∧ (1 ≤ b.len → b.len ≤ 3 → core64 c b s0 s1 =
        fold (s0 + BitVec.ofNat 64 (byte 0 + 256 * byte (b.len / 2) + 65536 * byte (b.len - 1) + 16777216 * b.len)) s1 m)
    ∧ (4 ≤ b.len → b.len ≤ 7 → core64 c b s0 s1 =
        fold (BitVec.ofNat 64 (s0.toNat + b.len + 8 * memRead b.mem b.base 4))
          (BitVec.ofNat 64 (s1.toNat + memRead b.mem (b.base + (b.len - 4)) 4)) m)
    ∧ (8 ≤ b.len → b.len ≤ 16 → ∃ x y : Word,
        x = BitVec.ofNat 64 (memRead b.mem b.base 8 + s0.toNat)
        ∧ y = BitVec.ofNat 64 (memRead b.mem (b.base + (b.len - 8)) 8 + s1.toNat)
        ∧ core64 c b s0 s1 = fold (BitVec.ofNat 64 ((rot64 y 37).toNat * m.toNat + x.toNat + b.len))
            (BitVec.ofNat 64 (((rot64 x 25).toNat + y.toNat) * m.toNat)) m)

/-- R132, R134, R135: the digest of 17 to 32 and of 33 to 64 bytes: Absorb16 over the 16-byte strides at the listed offsets, from
the seeds, then one Fold. -/
def Obligations.CoreMiddleBuckets : Prop :=
  ∀ (c : Config) (b : Buffer) (s0 s1 : Word), 17 ≤ b.len → b.len ≤ 64 →
    ∃ uv : Word × Word,
      uv = (if b.len ≤ 32 then [0, b.len - 16] else [0, 16, b.len - 32, b.len - 16]).foldl
        (fun p o => absorb16 c p.1 p.2 (b.f64 o) (b.f64 (o + 8))) (s0, s1)
      ∧ core64 c b s0 s1 = fold (uv.1 + BitVec.ofNat 64 b.len) uv.2 (BitVec.ofNat 64 (c.k2.toNat + 2 * b.len))

/-- R136 to R139: the digest of 65 bytes and more: the accumulators set from the tail window and the seeds, (n - 1) div 64 strides of
64 bytes from offset 0, and the reduction. -/
def Obligations.CoreLongBucket : Prop :=
  ∀ (c : Config) (b : Buffer) (s0 s1 : Word), 65 ≤ b.len →
    ∃ x y z v0 v1 w0 w1 : Nat → Word,
      (let n := b.len
       x 0 = b.f64 (n - 40) * c.k1 + b.f64 0 ∧ y 0 = b.f64 (n - 16) + b.f64 (n - 56)
       ∧ z 0 = fold (b.f64 (n - 48) + BitVec.ofNat 64 n) (b.f64 (n - 24)) c.kmul
       ∧ (v0 0, v1 0) = weakMix (b.f64 (n - 64)) (b.f64 (n - 56)) (b.f64 (n - 48)) (b.f64 (n - 40))
           (BitVec.ofNat 64 n + s0) (z 0)
       ∧ (w0 0, w1 0) = weakMix (b.f64 (n - 32)) (b.f64 (n - 24)) (b.f64 (n - 16)) (b.f64 (n - 8))
           (y 0 + s1) (b.f64 (n - 40)))
      ∧ (∀ k, k < (b.len - 1) / 64 →
        let pos := 64 * k
        z (k + 1) = (rot64 (x k + y k + v0 k + b.f64 (pos + 8)) 37 * c.k1) ^^^ w1 k
        ∧ y (k + 1) = rot64 (y k + v1 k + b.f64 (pos + 48)) 42 * c.k1 + v0 k + b.f64 (pos + 40)
        ∧ x (k + 1) = rot64 (z k + w0 k) 33 * c.k1
        ∧ (v0 (k + 1), v1 (k + 1)) = weakMix (b.f64 pos) (b.f64 (pos + 8)) (b.f64 (pos + 16)) (b.f64 (pos + 24))
            (v1 k * c.k1) (z (k + 1) + w0 k)
        ∧ (w0 (k + 1), w1 (k + 1)) = weakMix (b.f64 (pos + 32)) (b.f64 (pos + 40)) (b.f64 (pos + 48))
            (b.f64 (pos + 56)) (x (k + 1) + w1 k) (y (k + 1) + b.f64 (pos + 16)))
      ∧ (let j := (b.len - 1) / 64
         core64 c b s0 s1 = fold (fold (v0 j) (w0 j) c.kmul + (y j ^^^ (y j >>> 47)) * c.k1 + z j)
           (fold (v1 j) (w1 j) c.kmul + x j) c.kmul)

/-- R126: the length-dependent multiplier is odd whenever K2 is, for every length. -/
def Obligations.LengthMultiplierIsOdd : Prop :=
  ∀ (c : Config) (b : Buffer), oddWord c.k2 = true → oddWord (lengthMul c b) = true

/-- R129: over bucket B1 the map from the length and the bytes to the packed word is one-to-one. -/
def Obligations.PackedWordIsOneToOne : Prop :=
  ∀ b b' : Buffer, 1 ≤ b.len → b.len ≤ 3 → 1 ≤ b'.len → b'.len ≤ 3 → packB1 b = packB1 b' →
    b'.len = b.len ∧ ∀ i, i < b.len → readByte b'.mem (b'.base + i) = readByte b.mem (b.base + i)

/-- R140: H64 is H64SS with both default seeds, and H64S is H64SS with SEED1 at its default, on every buffer that fits. -/
def Obligations.DefaultSeedsReplaceCallerSeeds : Prop :=
  ∀ s : State, s.bufferFits →
    (∃ t u, exec .h64 s = .next t
      ∧ exec .h64ss { s with eng := { s.eng with seed0 := s.cfg.ds64x0, seed1 := s.cfg.ds64x1 } } = .next u
      ∧ t.SameResult u)
    ∧ (∃ t u, exec .h64s s = .next t
      ∧ exec .h64ss { s with eng := { s.eng with seed1 := s.cfg.ds64x1 } } = .next u ∧ t.SameResult u)

/-- R140: with K2 odd, on a buffer of at most 7 bytes two different first seeds give different H64SS and H64S digests. -/
def Obligations.ShortDigestsSeparateFirstSeeds : Prop :=
  ∀ (s : State) (a : Word), oddWord s.cfg.k2 = true → s.bufferFits → s.eng.len.toNat ≤ 7 → a ≠ s.eng.seed0 →
    (∃ t u, exec .h64ss s = .next t ∧ exec .h64ss { s with eng := { s.eng with seed0 := a } } = .next u
      ∧ t.eng.d0 ≠ u.eng.d0)
    ∧ (∃ t u, exec .h64s s = .next t ∧ exec .h64s { s with eng := { s.eng with seed0 := a } } = .next u
      ∧ t.eng.d0 ≠ u.eng.d0)

/-! ### The wide combiners (spec/42_wide.md) -/

/-- R156, R157, R160, R162: H128 and H128S, when the buffer fits: two core lanes with the seed pairs of R156, then the cross-mix. -/
def Obligations.WideDigestCommands : Prop :=
  ∀ s : State, s.bufferFits →
    (∃ t h0 h1 d0 d1, exec .h128 s = .next t ∧ s.Succeeds t 2 d0 d1 0 0
      ∧ h0 = core64 s.cfg s.buffer s.cfg.ds128x0 s.cfg.ds128x1
      ∧ h1 = core64 s.cfg s.buffer (s.cfg.ds128x1 ^^^ s.cfg.k0) (s.cfg.ds128x0 ^^^ s.cfg.k1)
      ∧ FoldSteps h0 h1 s.cfg.kmul d0 ∧ FoldSteps h1 d0 s.cfg.kmul d1)
    ∧ (∃ t h0 h1 d0 d1, exec .h128s s = .next t ∧ s.Succeeds t 2 d0 d1 0 0
      ∧ h0 = core64 s.cfg s.buffer s.eng.seed0 s.eng.seed1
      ∧ h1 = core64 s.cfg s.buffer (s.eng.seed1 ^^^ s.cfg.k0) (s.eng.seed0 ^^^ s.cfg.k1)
      ∧ FoldSteps h0 h1 s.cfg.kmul d0 ∧ FoldSteps h1 d0 s.cfg.kmul d1)

/-- R156: the lanes of Core128 run over the whole buffer, lane 0 with the seed pair given and lane 1 with the pair derived from it;
when K0 and K1 differ, the two pairs are never equal. -/
def Obligations.LaneSeedPairsDiffer : Prop :=
  ∀ (c : Config) (b : Buffer) (s0 s1 : Word),
    core128 c b s0 s1 = crossMix c (core64 c b s0 s1) (core64 c b (lane1Seeds c s0 s1).1 (lane1Seeds c s0 s1).2)
    ∧ lane1Seeds c s0 s1 = (s1 ^^^ c.k0, s0 ^^^ c.k1)
    ∧ (c.k0 ≠ c.k1 → lane1Seeds c s0 s1 ≠ (s0, s1))

/-- R163 to R170: H256, when the buffer fits: below 32 bytes four core lanes; from 32 bytes on (n + 31) div 32 strides, each a lane
update and an interleave, the last stride ending at the buffer's end; then the finalisation. -/
def Obligations.H256FourLanes : Prop :=
  ∀ s : State, s.bufferFits →
    ∃ (t : State) (a0 a1 a2 a3 : Nat → Word) (ns : Nat) (w : Word),
      (let c := s.cfg
       let b := s.buffer
       let n := s.eng.len.toNat
       let q : Word := BitVec.ofNat 64 n
       (n < 32 → ns = 0 ∧ a0 0 = core64 c b c.k0 c.k1 ∧ a1 0 = core64 c b c.k1 c.k2 ∧ a2 0 = core64 c b c.k2 c.kmul
          ∧ a3 0 = core64 c b c.kmul c.k0)
       ∧ (32 ≤ n → ns = (n + 31) / 32 ∧ a0 0 = c.k0 + q ∧ a1 0 = c.k1 + q ∧ a2 0 = c.k2 + q ∧ a3 0 = c.kmul + q
          ∧ ∀ k, k < ns →
            let off := min (32 * k) (n - 32)
            a0 (k + 1) = absorb8 c (a0 k) (b.f64 off) ^^^ rot64 (absorb8 c (a1 k) (b.f64 (off + 8))) 37
            ∧ a1 (k + 1) = absorb8 c (a1 k) (b.f64 (off + 8)) ^^^ rot64 (absorb8 c (a2 k) (b.f64 (off + 16))) 42
            ∧ a2 (k + 1) = absorb8 c (a2 k) (b.f64 (off + 16)) ^^^ rot64 (absorb8 c (a3 k) (b.f64 (off + 24))) 33
            ∧ a3 (k + 1) = absorb8 c (a3 k) (b.f64 (off + 24)) ^^^ rot64 (a0 (k + 1)) 43)
       ∧ w = fold (fold (a0 ns) (a1 ns) c.kmul) (fold (a2 ns) (a3 ns) c.kmul) c.kmul)
      ∧ exec .h256 s = .next t
      ∧ s.Succeeds t 4 (fold (a0 ns + w) (a1 ns) s.cfg.kmul) (fold (a1 ns + w) (a2 ns) s.cfg.kmul)
          (fold (a2 ns + w) (a3 ns) s.cfg.kmul) (fold (a3 ns + w) (a0 ns) s.cfg.kmul)

/-- R168: the interleave is a bijection on the four-word state. -/
def Obligations.InterleaveIsBijective : Prop := Function.Bijective lanesInterleave

/-! ### The CRC path (spec/43_crc.md) -/

/-- R178: below 64 bytes, when CRCSEL is not NONE and the buffer fits, H128C succeeds with exactly the result of H128. -/
def Obligations.ShortH128cIsH128 : Prop :=
  ∀ s : State, capCrcsel s.eng.cap ≠ 0 → s.bufferFits → s.eng.len.toNat < 64 →
    ∃ t d0 d1, exec .h128c s = .next t ∧ exec .h128 s = .next t ∧ s.Succeeds t 2 d0 d1 0 0

/-- R179, R180, R181: from 64 bytes on, when CRCSEL is not NONE and the buffer fits, H128C walks (n + 63) div 64 strides, each two
half-strides of four CrcStep, one WeakMix and two Fold2, the last stride ending at the buffer's end. -/
def Obligations.LongH128cWalksCrcStrides : Prop :=
  ∀ s : State, capCrcsel s.eng.cap ≠ 0 → s.bufferFits → 64 ≤ s.eng.len.toNat →
    ∃ (t : State) (a b : Nat → Word) (e : Nat → Half) (d0 d1 : Word),
      (let c := s.cfg
       let n := s.eng.len.toNat
       let ns := (n + 63) / 64
       a 0 = c.ds128x0 ∧ b 0 = c.ds128x1 ∧ e 0 = s.eng.len.extractLsb' 0 32
       ∧ (∀ h, h < 2 * ns →
          let o := min (64 * (h / 2)) (n - 64) + 32 * (h % 2)
          ∃ (q : Fin 4 → Word) (g : Fin 5 → Half) (p : Word × Word),
            g 0 = e h ∧ (∀ j : Fin 4, g j.succ = crcStep c (g j.castSucc) (s.buffer.f64 (o + 8 * j.val))
              ∧ q j = s.buffer.f64 (o + 8 * j.val) ^^^ ((g j.succ).setWidth 64 <<< 32))
            ∧ p = weakMix (q 0) (q 1) (q 2) (q 3) (a h) (b h)
            ∧ a (h + 1) = fold p.1 p.2 c.kmul ∧ b (h + 1) = fold p.2 (a (h + 1)) c.kmul ∧ e (h + 1) = g 4)
       ∧ d0 = fold (a (2 * ns)) (b (2 * ns) + s.eng.len) c.kmul ∧ d1 = fold (b (2 * ns)) d0 c.kmul)
      ∧ exec .h128c s = .next t ∧ s.Succeeds t 2 d0 d1 0 0

/-- R184, R186: under two latch values that are not NONE, H128C and CRC64 give the same result words and STATUS. -/
def Obligations.CrcPathsAgree : Prop :=
  ∀ (s : State) (cap : Word) (i : Instr), i = .h128c ∨ i = .crc64 → capCrcsel s.eng.cap ≠ 0 → capCrcsel cap ≠ 0 →
    ∃ t u, exec i s = .next t ∧ exec i { s with eng := { s.eng with cap := cap } } = .next u ∧ t.SameResult u

/-- R185: CAPQ returns HWCRC and cannot fail, whatever PTR and LEN hold. -/
def Obligations.CapqReturnsHwcrc : Prop :=
  ∀ s : State, ∃ t, exec .capq s = .next t
    ∧ s.Succeeds t 1 (if capHwcrc s.eng.cap then 1 else 0) 0 0 0

/-! ### The whole machine -/

/-- The reset state meets the invariant; so does the reset state with any parameters that have an engine and any straps. The
reset straps, parameters not given and memory contents are the model's choice (logs 3, 4, 7); nothing here rests on them. -/
def Obligations.ResetStateMeetsInvariant : Prop :=
  State.reset.Inv ∧ ∀ (c : Config) (p : Straps), 1 ≤ c.neng → (State.resetWith c p []).Inv

/-- R24, R25, R28, R34, R46, R214: every step keeps the invariant: memory in canonical form inside the address space, as many engines as
blocks, a legal STATUS and latch in each, zeros beyond the valid result words, one latch value in all. -/
def Obligations.EveryStepKeepsInvariant : Prop :=
  ∀ s t : State, s.Inv → step s = .next t → t.Inv

/-- R20, R53, R235: the result words and STATUS of a command depend on nothing but the parameters, the operand registers, the
latch, the sticky bit and the bytes of the buffer: memory outside it is not read. -/
def Obligations.CommandDependsOnlyOnItsInputs : Prop :=
  ∀ (i : Instr) (s t : State), s.SameInputs t →
    ∃ s' t', exec i s = .next s' ∧ exec i t = .next t' ∧ s'.SameResult t'

/-- R74: a command ignores every operand register that its row of R68 does not list, the latch unless the row lists it, and
memory unless it reads the buffer: they have no effect on the result words and STATUS. -/
def Obligations.UnlistedOperandsAreIgnored : Prop :=
  ∀ (i : Instr) (s : State) (e : Engine) (m : Memory),
    (∀ o ∈ operandsRead i, e.registerMap.lookup o = s.eng.registerMap.lookup o) →
    (i ∈ readsLatch → e.cap = s.eng.cap) → (i ∈ readsBuffer → m = s.mem) →
    statusSerr e.status = statusSerr s.eng.status →
    ∃ t u, exec i s = .next t ∧ exec i { s with eng := e, mem := m } = .next u ∧ t.SameResult u

/-- R49: the place of a buffer that fits has no effect on the result of any command. -/
def Obligations.BufferPlaceIsIrrelevant : Prop :=
  ∀ (i : Instr) (s t : State), s.SameBytes t →
    ∃ s' t', exec i s = .next s' ∧ exec i t = .next t' ∧ s'.SameResult t'

/-- R214: a register transaction with one engine, a command included, leaves every other engine and the buffer memory alone. -/
def Obligations.OtherEnginesAreUntouched : Prop :=
  ∀ (s t : State) (a j k off size : Nat) (v : Word) (rest : List HostOp) (op : HostOp),
    op = .rd a size ∨ op = .wr a size v → s.queue = op :: rest → Config.locate s.cfg a = some (j, off) → k ≠ j →
    step s = .next t → t.engines[k]? = s.engines[k]? ∧ t.mem = s.mem

/-- R214: two register writes, commands included, to two different engines give the same engines in either order. -/
def Obligations.DifferentEnginesCommute : Prop :=
  ∀ (s : State) (a b j k o p : Nat) (v w : Word) (rest : List HostOp),
    Config.locate s.cfg a = some (j, o) → Config.locate s.cfg b = some (k, p) → j ≠ k → o % 8 = 0 → p % 8 = 0 →
    j < s.engines.length → k < s.engines.length →
    ∃ t t' u u', step { s with queue := .wr a 8 v :: .wr b 8 w :: rest } = .next t ∧ step t = .next t'
      ∧ step { s with queue := .wr b 8 w :: .wr a 8 v :: rest } = .next u ∧ step u = .next u'
      ∧ t'.engines = u'.engines ∧ t'.mem = u'.mem ∧ t'.mem = s.mem

/-- R73: the lines of a pseudo-instruction, their WR lines in any order and the command last, run as one digest call: they leave
every engine and memory as the command does with its operands set. -/
def Obligations.PseudoInstructionIsOneDigestCall : Prop :=
  ∀ (s : State) (p : Pseudo) (ws : List Line) (i : Instr),
    s.cfg.wellFormed = true → s.engines.length = s.cfg.neng → s.queue = [] → (ws ++ [Line.command i]).Perm p.lines →
    ∃ t u, stepsFrom (ws.length + 1) (s.load (ws ++ [Line.command i])) = .next t
      ∧ exec i { s with eng := p.operandsIn s.eng } = .next u ∧ t.engines = u.engines ∧ t.mem = s.mem

/-! ### The functions that the statements above name -/

/-- R86, R87, R90, R92 to R95: the mixing functions that the statements about the digests name follow their steps: the rotations over
the integers, Fold, WeakMix, Mur32 and Fmix32 step by step, CrcStep round by round (Absorb8 and Absorb16: AbsorbersAreBijective). -/
def Obligations.MixingFunctionsFollowTheirSteps : Prop :=
  (∀ (v : Word) (s : BitVec 6), (rot64 v s).toNat = rotRight 64 v.toNat s.toNat)
  ∧ (∀ (v : Half) (s : BitVec 5), (rot32 v s).toNat = rotRight 32 v.toNat s.toNat)
  ∧ (∀ u v m, FoldSteps u v m (fold u v m))
  ∧ (∀ w x y z a b, WeakMixSteps w x y z a b (weakMix w x y z a b).1 (weakMix w x y z a b).2)
  ∧ ∀ c : Config, (∀ a h, Mur32Steps c a h (mur32 c a h)) ∧ (∀ h, Fmix32Steps c h (fmix32 c h))
    ∧ ∀ e w, CrcSteps c e w (crcStep c e w)
end

