-- ==== Sys2Proof/Laws/Flags.lean ====
section
/-!
SUPPORT. The fields of a packed STATUS (spec/10_state.md R24) and of a packed CAP (R25): reading a field back gives what was
packed, and the bits beyond the fields read 0.
-/

namespace Sys2Proof.Machine

theorem getLsbD_packStatus (serr : Bool) (nw : BitVec 3) (ec : BitVec 4) (err done : Bool) (i : Nat) :
    (packStatus serr nw ec err done).getLsbD i =
      if i < 1 then done else if i < 2 then err else if i < 6 then ec.getLsbD (i - 2)
      else if i < 9 then nw.getLsbD (i - 6) else if i < 10 then serr else false := by
  rw [packStatus, BitVec.getLsbD_setWidth]
  repeat rw [BitVec.getLsbD_append]
  rcases Nat.lt_or_ge i 10 with h | h
  · interval_cases i <;> simp
  · simp [show ¬ i < 1 by omega, show ¬ i - 1 < 1 by omega, show ¬ i - 1 - 1 < 4 by omega,
      show ¬ i - 1 - 1 - 4 < 3 by omega, show ¬ i < 2 by omega, show ¬ i < 6 by omega, show ¬ i < 9 by omega,
      show ¬ i < 10 by omega]
    intro; omega

section
variable (serr : Bool) (nw : BitVec 3) (ec : BitVec 4) (err done : Bool)

@[simp] theorem statusDone_pack : statusDone (packStatus serr nw ec err done) = done := by
  rw [statusDone, getLsbD_packStatus]; rfl

@[simp] theorem statusErr_pack : statusErr (packStatus serr nw ec err done) = err := by
  rw [statusErr, getLsbD_packStatus]; rfl

@[simp] theorem statusEcode_pack : statusEcode (packStatus serr nw ec err done) = ec := by
  apply BitVec.eq_of_getLsbD_eq
  intro i hi
  rw [statusEcode, BitVec.getLsbD_extractLsb', getLsbD_packStatus]
  interval_cases i <;> simp

@[simp] theorem statusNw_pack : statusNw (packStatus serr nw ec err done) = nw := by
  apply BitVec.eq_of_getLsbD_eq
  intro i hi
  rw [statusNw, BitVec.getLsbD_extractLsb', getLsbD_packStatus]
  interval_cases i <;> simp

@[simp] theorem statusSerr_pack : statusSerr (packStatus serr nw ec err done) = serr := by
  rw [statusSerr, getLsbD_packStatus]; rfl

@[simp] theorem statusZero_pack : statusZero (packStatus serr nw ec err done) = 0 := by
  apply BitVec.eq_of_getLsbD_eq
  intro i hi
  rw [statusZero, BitVec.getLsbD_extractLsb', getLsbD_packStatus]
  simp [show ¬ 10 + i < 1 by omega, show ¬ 10 + i < 2 by omega, show ¬ 10 + i < 6 by omega,
    show ¬ 10 + i < 9 by omega, show ¬ 10 + i < 10 by omega]

end

theorem getLsbD_packCap (ovr swfb hwcrc : Bool) (sel : BitVec 2) (i : Nat) :
    (packCap ovr swfb hwcrc sel).getLsbD i =
      if i < 2 then sel.getLsbD i else if i < 3 then hwcrc else if i < 4 then swfb else if i < 5 then ovr else false := by
  rw [packCap, BitVec.getLsbD_setWidth]
  repeat rw [BitVec.getLsbD_append]
  rcases Nat.lt_or_ge i 5 with h | h
  · interval_cases i <;> simp
  · simp [show ¬ i < 2 by omega, show ¬ i - 2 < 1 by omega, show ¬ i - 2 - 1 < 1 by omega, show ¬ i < 3 by omega,
      show ¬ i < 4 by omega, show ¬ i < 5 by omega]
    intro; omega

section
variable (ovr swfb hwcrc : Bool) (sel : BitVec 2)

@[simp] theorem capCrcsel_pack : capCrcsel (packCap ovr swfb hwcrc sel) = sel := by
  apply BitVec.eq_of_getLsbD_eq
  intro i hi
  rw [capCrcsel, BitVec.getLsbD_extractLsb', getLsbD_packCap]
  interval_cases i <;> simp

@[simp] theorem capHwcrc_pack : capHwcrc (packCap ovr swfb hwcrc sel) = hwcrc := by
  rw [capHwcrc, getLsbD_packCap]; rfl

@[simp] theorem capSwfb_pack : capSwfb (packCap ovr swfb hwcrc sel) = swfb := by
  rw [capSwfb, getLsbD_packCap]; rfl

@[simp] theorem capOvr_pack : capOvr (packCap ovr swfb hwcrc sel) = ovr := by
  rw [capOvr, getLsbD_packCap]; rfl

@[simp] theorem capZero_pack : capZero (packCap ovr swfb hwcrc sel) = 0 := by
  apply BitVec.eq_of_getLsbD_eq
  intro i hi
  rw [capZero, BitVec.getLsbD_extractLsb', getLsbD_packCap]
  simp [show ¬ 5 + i < 2 by omega, show ¬ 5 + i < 3 by omega, show ¬ 5 + i < 4 by omega, show ¬ 5 + i < 5 by omega]

end

end Sys2Proof.Machine
end

