-- ==== Sys2Proof/Laws/Memory.lean ====
section
/-!
SUPPORT. The memory laws: a store keeps the canonical form, reads back, and leaves every other byte alone; two canonical
memories that read the same are the same list; a little-endian read depends only on the bytes it covers (R47).
-/

namespace Sys2Proof.Machine

@[simp] theorem readByte_nil (x : Nat) : readByte [] x = unlistedByte := rfl

/-- An address below the first listed one reads as unlisted. -/
theorem readByte_below {m : Memory} {x : Nat} (h : ∀ c ∈ m, x < c.1) : readByte m x = unlistedByte := by
  induction m with
  | nil => rfl
  | cons c m ih =>
    have hc := h c (by simp)
    rw [readByte, if_neg (by omega)]
    exact ih fun d hd => h d (by simp [hd])

theorem Memory.wf_nil : Memory.wf [] := by simp [Memory.wf]

theorem Memory.wf_tail {c : Host.Cell} {m : Memory} (h : Memory.wf (c :: m)) : Memory.wf m :=
  ⟨(List.pairwise_cons.mp h.1).2, fun d hd => h.2 d (by simp [hd])⟩

/-- The addresses of a store are those of the memory and the one stored to. -/
theorem writeByte_addr {m : Memory} {x : Nat} {v : Byte} {c : Host.Cell} (h : c ∈ writeByte m x v) :
    c ∈ m ∨ c = (x, v) := by
  induction m with
  | nil =>
    rw [writeByte] at h
    split at h <;> simp_all
  | cons d m ih =>
    rw [writeByte] at h
    split at h
    · split at h
      · exact .inl h
      · simp only [List.mem_cons] at h ⊢; tauto
    · split at h
      · split at h
        · exact .inl (by simp [h])
        · simp only [List.mem_cons] at h ⊢
          rcases h with h | h
          · exact .inr (by rw [h]; congr 1; omega)
          · exact .inl (.inr h)
      · simp only [List.mem_cons] at h ⊢
        rcases h with h | h
        · exact .inl (.inl h)
        · rcases ih h with h | h
          · exact .inl (.inr h)
          · exact .inr h

/-- A store keeps the canonical form. -/
theorem writeByte_wf {m : Memory} (h : m.wf) (x : Nat) (v : Byte) : (writeByte m x v).wf := by
  induction m with
  | nil => rw [writeByte]; split <;> simp_all [Memory.wf]
  | cons c m ih =>
    have ht := Memory.wf_tail h
    have hlt := (List.pairwise_cons.mp h.1).1
    rw [writeByte]
    split
    · split
      · exact h
      · refine ⟨List.pairwise_cons.mpr ⟨?_, h.1⟩, ?_⟩
        · intro d hd
          simp only [List.mem_cons] at hd
          rcases hd with rfl | hd
          · assumption
          · have := hlt d hd; simp only; omega
        · intro d hd
          simp only [List.mem_cons] at hd
          rcases hd with rfl | hd
          · assumption
          · exact h.2 d (by simpa using hd)
    · split
      · split
        · exact ht
        · refine ⟨List.pairwise_cons.mpr ⟨fun d hd => hlt d hd, ht.1⟩, ?_⟩
          intro d hd
          simp only [List.mem_cons] at hd
          rcases hd with rfl | hd
          · assumption
          · exact ht.2 d hd
      · have hm := ih ht
        refine ⟨List.pairwise_cons.mpr ⟨?_, hm.1⟩, ?_⟩
        · intro d hd
          rcases writeByte_addr hd with hd | rfl
          · exact hlt d hd
          · simp only; omega
        · intro d hd
          simp only [List.mem_cons] at hd
          rcases hd with rfl | hd
          · exact h.2 _ (by simp)
          · exact hm.2 d hd

/-- Reading after a store: the stored byte at its address, the old byte at every other. -/
theorem readByte_writeByte {m : Memory} (h : m.wf) (x : Nat) (v : Byte) (y : Nat) :
    readByte (writeByte m x v) y = if y = x then v else readByte m y := by
  induction m with
  | nil => rw [writeByte]; split <;> split <;> simp_all [readByte]
  | cons c m ih =>
    have ht := Memory.wf_tail h
    have hlt := (List.pairwise_cons.mp h.1).1
    obtain ⟨a, b⟩ := c
    rw [writeByte]
    split
    · rename_i hx
      split
      · rename_i hv
        by_cases hy : y = x
        · subst hy
          rw [if_pos rfl, hv]
          apply readByte_below
          intro d hd
          simp only [List.mem_cons] at hd
          rcases hd with rfl | hd
          · exact hx
          · have := hlt d hd; simp only at this; omega
        · rw [if_neg hy]
      · rfl
    · split
      · rename_i hx hxa
        subst hxa
        split
        · rename_i hv
          by_cases hy : y = x
          · subst hy
            rw [if_pos rfl, hv]
            exact readByte_below fun d hd => hlt d hd
          · rw [if_neg hy, readByte, if_neg hy]
        · simp only [readByte]; split <;> simp_all
      · rename_i hx hxa
        simp only [readByte]
        by_cases hya : y = a
        · rw [if_pos hya, if_pos hya, if_neg (by omega)]
        · rw [if_neg hya, if_neg hya, ih ht]

/-- A read of `k` bytes depends on those bytes alone. -/
theorem memRead_congr {m m' : Memory} {a a' k : Nat}
    (h : ∀ i, i < k → readByte m' (a' + i) = readByte m (a + i)) : memRead m' a' k = memRead m a k := by
  induction k generalizing a a' with
  | zero => rfl
  | succ k ih =>
    rw [memRead, memRead]
    congr 1
    · simpa using congrArg BitVec.toNat (h 0 (by omega))
    · congr 1
      apply ih
      intro i hi
      have := h (i + 1) (by omega)
      rwa [show a' + 1 + i = a' + (i + 1) by omega, show a + 1 + i = a + (i + 1) by omega]

/-- A read of `k` bytes is below 256^k. -/
theorem memRead_lt (m : Memory) (a k : Nat) : memRead m a k < 256 ^ k := by
  induction k generalizing a with
  | zero => simp [memRead]
  | succ k ih =>
    rw [memRead, Nat.pow_succ]
    have h1 := (readByte m a).isLt
    have h2 := ih (a + 1)
    omega

/-- A longer read is the shorter one with the bytes that follow above it. -/
theorem memRead_add (m : Memory) (a j k : Nat) :
    memRead m a (j + k) = memRead m a j + 256 ^ j * memRead m (a + j) k := by
  induction j generalizing a with
  | zero => simp [memRead]
  | succ j ih =>
    rw [show j + 1 + k = (j + k) + 1 by omega, memRead, memRead, ih, Nat.pow_succ,
      show a + 1 + j = a + (j + 1) by omega]
    ring

end Sys2Proof.Machine
end

