-- ==== Sys2Proof/Laws/State.lean ====
section
/-!
SUPPORT. One lemma per field per update of the machine's records, so that no later proof unfolds an update: the completion
update (`complete`), taking an error (`raise`), the reset event, on the register file and on the machine.
-/

namespace Sys2Proof.Machine

section
variable (e : Engine) (x : CmdError) (r0 r1 r2 r3 : Word)

@[simp] theorem Engine.complete_one_d0 : (e.complete (.one r0)).d0 = r0 := rfl
@[simp] theorem Engine.complete_one_d1 : (e.complete (.one r0)).d1 = 0 := rfl
@[simp] theorem Engine.complete_one_d2 : (e.complete (.one r0)).d2 = 0 := rfl
@[simp] theorem Engine.complete_one_d3 : (e.complete (.one r0)).d3 = 0 := rfl
@[simp] theorem Engine.complete_one_status : (e.complete (.one r0)).status = statusOnSuccess e.status 1 := rfl
@[simp] theorem Engine.complete_two_d0 : (e.complete (.two r0 r1)).d0 = r0 := rfl
@[simp] theorem Engine.complete_two_d1 : (e.complete (.two r0 r1)).d1 = r1 := rfl
@[simp] theorem Engine.complete_two_d2 : (e.complete (.two r0 r1)).d2 = 0 := rfl
@[simp] theorem Engine.complete_two_d3 : (e.complete (.two r0 r1)).d3 = 0 := rfl
@[simp] theorem Engine.complete_two_status : (e.complete (.two r0 r1)).status = statusOnSuccess e.status 2 := rfl
@[simp] theorem Engine.complete_four_d0 : (e.complete (.four r0 r1 r2 r3)).d0 = r0 := rfl
@[simp] theorem Engine.complete_four_d1 : (e.complete (.four r0 r1 r2 r3)).d1 = r1 := rfl
@[simp] theorem Engine.complete_four_d2 : (e.complete (.four r0 r1 r2 r3)).d2 = r2 := rfl
@[simp] theorem Engine.complete_four_d3 : (e.complete (.four r0 r1 r2 r3)).d3 = r3 := rfl
@[simp] theorem Engine.complete_four_status :
    (e.complete (.four r0 r1 r2 r3)).status = statusOnSuccess e.status 4 := rfl

@[simp] theorem Engine.complete_ptr (r : ResultWords) : (e.complete r).ptr = e.ptr := by cases r <;> rfl
@[simp] theorem Engine.complete_len (r : ResultWords) : (e.complete r).len = e.len := by cases r <;> rfl
@[simp] theorem Engine.complete_seed0 (r : ResultWords) : (e.complete r).seed0 = e.seed0 := by cases r <;> rfl
@[simp] theorem Engine.complete_seed1 (r : ResultWords) : (e.complete r).seed1 = e.seed1 := by cases r <;> rfl
@[simp] theorem Engine.complete_x0 (r : ResultWords) : (e.complete r).x0 = e.x0 := by cases r <;> rfl
@[simp] theorem Engine.complete_x1 (r : ResultWords) : (e.complete r).x1 = e.x1 := by cases r <;> rfl
@[simp] theorem Engine.complete_x2 (r : ResultWords) : (e.complete r).x2 = e.x2 := by cases r <;> rfl
@[simp] theorem Engine.complete_cap (r : ResultWords) : (e.complete r).cap = e.cap := by cases r <;> rfl

@[simp] theorem Engine.fail_ptr : (e.fail x).ptr = e.ptr := rfl
@[simp] theorem Engine.fail_len : (e.fail x).len = e.len := rfl
@[simp] theorem Engine.fail_seed0 : (e.fail x).seed0 = e.seed0 := rfl
@[simp] theorem Engine.fail_seed1 : (e.fail x).seed1 = e.seed1 := rfl
@[simp] theorem Engine.fail_x0 : (e.fail x).x0 = e.x0 := rfl
@[simp] theorem Engine.fail_x1 : (e.fail x).x1 = e.x1 := rfl
@[simp] theorem Engine.fail_x2 : (e.fail x).x2 = e.x2 := rfl
@[simp] theorem Engine.fail_cap : (e.fail x).cap = e.cap := rfl
@[simp] theorem Engine.fail_d0 : (e.fail x).d0 = 0 := rfl
@[simp] theorem Engine.fail_d1 : (e.fail x).d1 = 0 := rfl
@[simp] theorem Engine.fail_d2 : (e.fail x).d2 = 0 := rfl
@[simp] theorem Engine.fail_d3 : (e.fail x).d3 = 0 := rfl
@[simp] theorem Engine.fail_status : (e.fail x).status = statusOnError x.code := rfl

end

section
variable (s : State) (r : ResultWords) (x : CmdError)

@[simp] theorem State.complete_eng : (s.complete r).eng = s.eng.complete r := rfl
@[simp] theorem State.complete_cfg : (s.complete r).cfg = s.cfg := rfl
@[simp] theorem State.complete_pins : (s.complete r).pins = s.pins := rfl
@[simp] theorem State.complete_mem : (s.complete r).mem = s.mem := rfl
@[simp] theorem State.complete_lower : (s.complete r).lower = s.lower := rfl
@[simp] theorem State.complete_upper : (s.complete r).upper = s.upper := rfl
@[simp] theorem State.complete_queue : (s.complete r).queue = s.queue := rfl
@[simp] theorem State.complete_reply : (s.complete r).reply = s.reply := rfl

@[simp] theorem State.raise_eng : (s.raise x).eng = s.eng.fail x := rfl
@[simp] theorem State.raise_cfg : (s.raise x).cfg = s.cfg := rfl
@[simp] theorem State.raise_pins : (s.raise x).pins = s.pins := rfl
@[simp] theorem State.raise_mem : (s.raise x).mem = s.mem := rfl
@[simp] theorem State.raise_lower : (s.raise x).lower = s.lower := rfl
@[simp] theorem State.raise_upper : (s.raise x).upper = s.upper := rfl
@[simp] theorem State.raise_queue : (s.raise x).queue = s.queue := rfl
@[simp] theorem State.raise_reply : (s.raise x).reply = s.reply := rfl

@[simp] theorem State.resetEvent_eng : s.resetEvent.eng = Engine.atReset (capOf s.pins) := rfl
@[simp] theorem State.resetEvent_cfg : s.resetEvent.cfg = s.cfg := rfl
@[simp] theorem State.resetEvent_pins : s.resetEvent.pins = s.pins := rfl
@[simp] theorem State.resetEvent_mem : s.resetEvent.mem = s.mem := rfl
@[simp] theorem State.resetEvent_queue : s.resetEvent.queue = s.queue := rfl
@[simp] theorem State.resetEvent_reply : s.resetEvent.reply = .none := rfl

/-- Every engine after the reset event is the reset register file with the latch of the straps as they are. -/
theorem State.resetEvent_engines :
    s.resetEvent.engines = s.engines.map fun _ => Engine.atReset (capOf s.pins) := by
  simp [State.engines, State.resetEvent]

end

end Sys2Proof.Machine
end

