-- ==== Sys2Proof/Laws/Ops.lean ====
section
/-!
SUPPORT. What each shared operation can do, said once: the completion update and taking an error (spec/10_state.md R28),
bringing an engine to the foreground, finding the register a host access names, and the two ways a command ends.
-/

namespace Sys2Proof.Machine

/-- A completion changes only D0 to D3 and STATUS of the foreground engine (R29). -/
theorem State.complete_frame (s : State) (r : ResultWords) : s.CommandFrame (s.complete r) where
  operands := by constructor <;> simp
  memory := by simp
  memoryList := by simp
  lower := by simp
  upper := by simp
  cfg := by simp
  pins := by simp
  queue := by simp
  reply := by simp

/-- Taking an error changes only D0 to D3 and STATUS of the foreground engine (R200). -/
theorem State.raise_frame (s : State) (x : CmdError) : s.CommandFrame (s.raise x) where
  operands := by constructor <;> simp
  memory := by simp
  memoryList := by simp
  lower := by simp
  upper := by simp
  cfg := by simp
  pins := by simp
  queue := by simp
  reply := by simp

/-- One result word: the success form of R28. -/
theorem State.complete_one (s : State) (r0 : Word) : s.Succeeds (s.complete (.one r0)) 1 r0 0 0 0 := by
  constructor <;> simp [statusOnSuccess, State.complete_frame]

/-- Two result words: the success form of R28. -/
theorem State.complete_two (s : State) (r0 r1 : Word) : s.Succeeds (s.complete (.two r0 r1)) 2 r0 r1 0 0 := by
  constructor <;> simp [statusOnSuccess, State.complete_frame]

/-- Four result words: the success form of R28. -/
theorem State.complete_four (s : State) (r0 r1 r2 r3 : Word) :
    s.Succeeds (s.complete (.four r0 r1 r2 r3)) 4 r0 r1 r2 r3 := by
  constructor <;> simp [statusOnSuccess, State.complete_frame]

/-- Taking an error is the error form of R28 with the code of the error (R200). -/
theorem State.raise_fails (s : State) (x : CmdError) : s.Fails (s.raise x) x.code.toNat := by
  constructor <;> simp [statusOnError, State.raise_frame]

/-- Bringing an engine to the foreground: it exists, every register of every engine and everything else stays. -/
theorem State.focus_spec {s t : State} {j : Nat} (h : s.focus j = some t) :
    t.engines = s.engines ∧ t.lower.length = j ∧ s.engines[j]? = some t.eng ∧ t.cfg = s.cfg ∧ t.pins = s.pins
      ∧ t.mem = s.mem ∧ t.queue = s.queue ∧ t.reply = s.reply := by
  unfold State.focus at h
  split at h
  · exact absurd h (by simp)
  · rename_i e rest hd
    have hj : j < s.engines.length := by
      by_contra hc
      rw [List.drop_eq_nil_of_le (by omega)] at hd
      exact absurd hd (by simp)
    injection h with h
    subst h
    refine ⟨?_, ?_, ?_, rfl, rfl, rfl, rfl, rfl⟩
    · show s.engines.take j ++ e :: rest = s.engines
      rw [← hd, List.take_append_drop]
    · simp only [List.length_take]; omega
    · have := congrArg (fun l => l[0]?) hd
      simpa using this

/-- An engine that exists can be brought to the foreground. -/
theorem State.focus_some {s : State} {j : Nat} (h : j < s.engines.length) : ∃ t, s.focus j = some t := by
  unfold State.focus
  split
  · rename_i hd
    rw [List.drop_eq_nil_iff] at hd
    omega
  · exact ⟨_, rfl⟩

/-- The foreground engine is brought to the foreground by doing nothing. -/
theorem State.focus_self (s : State) : s.focus s.lower.length = some s := by
  unfold State.focus State.engines
  split
  · rename_i hd; simp at hd
  · rename_i e rest hd
    simp only [List.drop_left] at hd
    injection hd with h1 h2
    subst h1 h2
    simp

/-- The register a host access names, where it names one (R58). -/
theorem State.target_reg {s t : State} {addr size off : Nat} (h : s.target addr size = .reg t off) :
    ∃ j, Config.locate s.cfg addr = some (j, off) ∧ s.focus j = some t ∧ size = 8 ∧ off % 8 = 0 := by
  unfold State.target at h
  split at h
  · exact absurd h (by simp)
  · rename_i j o hl
    split at h
    · rename_i hs
      split at h
      · rename_i u hf
        injection h with h1 h2
        subst h1 h2
        exact ⟨j, hl, hf, hs.1, hs.2⟩
      · exact absurd h (by simp)
    · exact absurd h (by simp)

/-- A whole aligned access to an engine that exists names a register. -/
theorem State.target_some {s t : State} {addr off j : Nat} (hl : Config.locate s.cfg addr = some (j, off))
    (hf : s.focus j = some t) (ha : off % 8 = 0) : s.target addr 8 = .reg t off := by
  simp [State.target, hl, hf, ha]

end Sys2Proof.Machine
end

