-- ==== Sys2Proof/Laws/Exec.lean ====
section
/-!
SUPPORT. What a command and a step can do, said once: a command ends with a completion or an error of the foreground engine;
a step is the host's next operation. Fetches depend only on the bytes they cover.
-/

namespace Sys2Proof.Machine

/-- A command ends in a next state: the completion of some result words, or one of the errors (R28). -/
theorem exec_cases (i : Instr) (s : State) :
    (∃ r, exec i s = .next (s.complete r)) ∨ (∃ x, exec i s = .next (s.raise x)) := by
  cases i <;> simp only [exec, execH32, execH64, execH64s, execH64ss, execH128, execH128s, execH256, execH128c, execCapq,
    execRot64i, execRot64r, execRot32i, execRot32r, execShmix, execFold, execFoldm, execWmix, execFetch32, execFetch64,
    execMur32, execFmix32, execCrc64]
  all_goals
    (repeat' split) <;> first | exact .inl ⟨_, rfl⟩ | exact .inr ⟨_, rfl⟩

/-- The outcome of a value written to CMD: a completion or an error of the foreground engine. -/
theorem State.issue_cases (s : State) (v : Word) :
    (∃ r, s.issue v = .next (s.complete r)) ∨ (∃ x, s.issue v = .next (s.raise x)) := by
  unfold State.issue
  split
  · exact exec_cases _ _
  · exact .inr ⟨_, rfl⟩

/-- A step with nothing pending changes nothing. -/
theorem step_idle {s : State} (h : s.queue = []) : step s = .next s := by
  simp [step, State.advance, h]

/-- A step performs the host's next operation on the state without it. -/
theorem step_cons {s : State} {op : HostOp} {rest : List HostOp} (h : s.queue = op :: rest) :
    step s = { s with queue := rest }.hostOp op := by
  simp [step, State.advance, h]

/-- A step that answers a next state was idle, or performed an operation whose outcome is that state. -/
theorem step_next_cases {s t : State} (h : step s = .next t) :
    (s.queue = [] ∧ t = s) ∨ ∃ op rest, s.queue = op :: rest ∧ { s with queue := rest }.hostOp op = .next t := by
  rcases hq : s.queue with _ | ⟨op, rest⟩
  · rw [step_idle hq] at h
    injection h with h
    exact .inl ⟨rfl, h.symm⟩
  · rw [step_cons hq] at h
    exact .inr ⟨op, rest, rfl, h⟩

/-- Eight-byte fetches of two buffers agree where their bytes do. -/
theorem Buffer.f64_congr {b b' : Buffer} {o : Nat}
    (h : ∀ i, i < 8 → readByte b'.mem (b'.base + o + i) = readByte b.mem (b.base + o + i)) : b'.f64 o = b.f64 o := by
  rw [Buffer.f64, Buffer.f64, memRead_congr h]

/-- Four-byte fetches of two buffers agree where their bytes do. -/
theorem Buffer.f32_congr {b b' : Buffer} {o : Nat}
    (h : ∀ i, i < 4 → readByte b'.mem (b'.base + o + i) = readByte b.mem (b.base + o + i)) : b'.f32 o = b.f32 o := by
  rw [Buffer.f32, Buffer.f32, memRead_congr h]

/-- One-byte fetches of two buffers agree where their bytes do. -/
theorem Buffer.byteAt_congr {b b' : Buffer} {o : Nat}
    (h : readByte b'.mem (b'.base + o) = readByte b.mem (b.base + o)) : b'.byteAt o = b.byteAt o := by
  rw [Buffer.byteAt, Buffer.byteAt, memRead_congr (k := 1)]
  intro i hi
  obtain rfl : i = 0 := by omega
  simpa using h

end Sys2Proof.Machine
end

