-- ==== Sys2Proof/Laws/PerInstr.lean ====
section
/-!
SUPPORT. Statements about every command as syntax, one lemma per constructor.
`OpcodeByte`: the value a host writes for the command has the command's opcode in bits 7:0, its immediate in bits 13:8 and
zeros above (spec/30_encoding.md R66, R72).
-/

namespace Sys2Proof.Laws.OpcodeByte

/-- The fields of the command's host value. -/
def Statement (i : Instr) : Prop :=
  opcField (hostValue i) = opcode i ∧ shField (hostValue i) = immediate i
    ∧ zeroField (hostValue i) = 0 ∧ highField (hostValue i) = 0

theorem h32 : Statement .h32 := by unfold Statement; decide
theorem h64 : Statement .h64 := by unfold Statement; decide
theorem h64s : Statement .h64s := by unfold Statement; decide
theorem h64ss : Statement .h64ss := by unfold Statement; decide
theorem h128 : Statement .h128 := by unfold Statement; decide
theorem h128s : Statement .h128s := by unfold Statement; decide
theorem h256 : Statement .h256 := by unfold Statement; decide
theorem h128c : Statement .h128c := by unfold Statement; decide
theorem capq : Statement .capq := by unfold Statement; decide
theorem rot64i (sh : BitVec 6) : Statement (.rot64i sh) := by
  unfold Statement; revert sh; decide
theorem rot64r : Statement .rot64r := by unfold Statement; decide
theorem rot32i (sh : BitVec 6) : Statement (.rot32i sh) := by
  unfold Statement; revert sh; decide
theorem rot32r : Statement .rot32r := by unfold Statement; decide
theorem shmix : Statement .shmix := by unfold Statement; decide
theorem fold : Statement .fold := by unfold Statement; decide
theorem foldm : Statement .foldm := by unfold Statement; decide
theorem wmix : Statement .wmix := by unfold Statement; decide
theorem fetch32 : Statement .fetch32 := by unfold Statement; decide
theorem fetch64 : Statement .fetch64 := by unfold Statement; decide
theorem mur32 : Statement .mur32 := by unfold Statement; decide
theorem fmix32 : Statement .fmix32 := by unfold Statement; decide
theorem crc64 : Statement .crc64 := by unfold Statement; decide

end Sys2Proof.Laws.OpcodeByte
end

