-- ==== Sys2Proof/Tests/Slice0.lean ====
section
/-!
SUPPORT. Tests of the model on fixed values, each expected value taken from the spec (its place is named), and for every
statement of Certificates/Slice0/Obligations.lean that has hypotheses a concrete case that meets them (`witness_...`).
-/

namespace Sys2Proof.Tests

open Sys2Proof.Machine

set_option Elab.async false

/-! ### Helpers -/

/-- The buffer IOTA(n) of spec/95_test_vectors.md section 1 at an address: byte i is i mod 256. -/
def iotaAt (base n : Nat) : Memory :=
  (List.range n).foldr (fun i m => writeByte m (base + i) (BitVec.ofNat 8 i)) []

/-- The reset machine with IOTA(n) at 0x1000, and PTR and LEN set to it. -/
def iota (n : Nat) : State :=
  { State.reset with
    mem := iotaAt 0x1000 n
    eng := { State.reset.eng with ptr := 0x1000, len := BitVec.ofNat 64 n } }

/-- That machine with these primitive operands. -/
def iotaX (n : Nat) (x0 x1 x2 : Word) : State :=
  { iota n with eng := { (iota n).eng with x0 := x0, x1 := x1, x2 := x2 } }

/-- That machine with these seeds. -/
def iotaS (n : Nat) (s0 s1 : Word) : State :=
  { iota n with eng := { (iota n).eng with seed0 := s0, seed1 := s1 } }

/-- The reset machine with these primitive operands. -/
def prim (x0 x1 x2 : Word) : State := iotaX 0 x0 x1 x2

/-- The machine with this latch value in the foreground engine. -/
def withCap (s : State) (cap : Word) : State := { s with eng := { s.eng with cap := cap } }

/-- The result words and STATUS that a next state shows. -/
def shown (o : Host.Outcome State Fault Refusal) : Option (List Word) :=
  match o with
  | .next t => some [t.eng.d0, t.eng.d1, t.eng.d2, t.eng.d3, t.eng.status]
  | .fault _ => none
  | .refused _ => none

/-- The register that a host read of the next state would show, at this offset. -/
def shownReg (o : Host.Outcome State Fault Refusal) (off : Nat) : Option Word :=
  match o with
  | .next t => some (t.eng.readReg off)
  | .fault _ => none
  | .refused _ => none

/-- The reply of a next state. -/
def shownReply (o : Host.Outcome State Fault Refusal) : Option Reply :=
  match o with
  | .next t => some t.reply
  | .fault _ => none
  | .refused _ => none

/-- The reset machine with one operation pending. -/
def pending (op : HostOp) : State := { State.reset with queue := [op] }

/-- Two engines, with register blocks at 0 and 0x100 (R56, R214). -/
def twoConfig : Config := { Config.standard with regbase := [0, 0x100] }

/-- The reset machine with two engines and these operations pending. -/
def two (ops : List HostOp) : State := { State.resetWith twoConfig Straps.standard [] with queue := ops }

/-! ### Well-formedness and decoding (spec/30_encoding.md R66 to R70, words of spec/95_test_vectors.md section 3) -/

theorem test_wellFormed_refuses_rot32i_32 : (Instr.rot32i 32).wellFormed = false := by decide
theorem test_wellFormed_accepts_rot32i_31 : (Instr.rot32i 31).wellFormed = true := by decide
theorem test_wellFormed_accepts_rot64i_63 : (Instr.rot64i 63).wellFormed = true := by decide

theorem test_decode_h32 : decode 0b00010000 = .command .h32 := by decide
theorem test_decode_h64 : decode 0b00010001 = .command .h64 := by decide
theorem test_decode_h64s : decode 0b00010010 = .command .h64s := by decide
theorem test_decode_h64ss : decode 0b00010011 = .command .h64ss := by decide
theorem test_decode_h128 : decode 0b00010100 = .command .h128 := by decide
theorem test_decode_h128s : decode 0b00010101 = .command .h128s := by decide
theorem test_decode_h256 : decode 0b00010110 = .command .h256 := by decide
theorem test_decode_h128c : decode 0b00010111 = .command .h128c := by decide
theorem test_decode_capq : decode 0b00011000 = .command .capq := by decide
theorem test_decode_rot64i_37 : decode 0b100101_00100000 = .command (.rot64i 37) := by decide
theorem test_decode_rot64i_63 : decode 0b111111_00100000 = .command (.rot64i 63) := by decide
theorem test_decode_rot64r : decode 0b00100001 = .command .rot64r := by decide
theorem test_decode_rot32i_8 : decode 0b001000_00100010 = .command (.rot32i 8) := by decide
theorem test_decode_rot32i_31 : decode 0b011111_00100010 = .command (.rot32i 31) := by decide
theorem test_decode_rot32r : decode 0b00100011 = .command .rot32r := by decide
theorem test_decode_shmix : decode 0b00100100 = .command .shmix := by decide
theorem test_decode_fold : decode 0b00100101 = .command .fold := by decide
theorem test_decode_foldm : decode 0b00100110 = .command .foldm := by decide
theorem test_decode_wmix : decode 0b00100111 = .command .wmix := by decide
theorem test_decode_fetch32 : decode 0b00101000 = .command .fetch32 := by decide
theorem test_decode_fetch64 : decode 0b00101001 = .command .fetch64 := by decide
theorem test_decode_mur32 : decode 0b00101010 = .command .mur32 := by decide
theorem test_decode_fmix32 : decode 0b00101011 = .command .fmix32 := by decide
theorem test_decode_crc64 : decode 0b00101100 = .command .crc64 := by decide

/-- The illegal values of spec/95_test_vectors.md section 3. -/
theorem test_decode_refuses : decode 0x00 = .illegal (.unknownOpcode 0x00)
    ∧ decode 0x0f = .illegal (.unknownOpcode 0x0f) ∧ decode 0x19 = .illegal (.unknownOpcode 0x19)
    ∧ decode 0x1f = .illegal (.unknownOpcode 0x1f) ∧ decode 0x2d = .illegal (.unknownOpcode 0x2d)
    ∧ decode 0xff = .illegal (.unknownOpcode 0xff) ∧ decode 0x0111 = .illegal (.immediateNotZero 0x11)
    ∧ decode 0x2517 = .illegal (.immediateNotZero 0x17) ∧ decode 0x2022 = .illegal (.rotateAmount 32)
    ∧ decode 0x3f22 = .illegal (.rotateAmount 63) ∧ decode 0x4020 = .illegal .reservedBits
    ∧ decode 0x4011 = .illegal .reservedBits ∧ decode 0x80000011 = .illegal .reservedBits
    ∧ decode 0x0000000100000011 = .illegal .highHalf ∧ decode 0xffffffffffffffff = .illegal .highHalf := by decide

theorem test_encode_rot64i_37 : encode (.rot64i 37) = 0x00002520 := by decide
theorem test_encode_crc64 : encode .crc64 = 0x0000002c := by decide
theorem test_decodeTableWord_h64 : decodeTableWord 32 0x11 = some .h64 := by decide
theorem test_decodeTableWord_refuses : decodeTableWord 32 0x4011 = none := by decide

/-! ### One command each (spec/95_test_vectors.md 4.1 and 4.5, spec/96_test_vectors_digests.md) -/

theorem test_h32_iota_65 : shown (exec .h32 (iota 65)) = some [0xd7d32174, 0, 0, 0, 0x041] := by decide +kernel
theorem test_h64_iota_16 : shown (exec .h64 (iota 16)) = some [0x34e3a8f221b73e59, 0, 0, 0, 0x041] := by
  decide +kernel
theorem test_h64_iota_129 : shown (exec .h64 (iota 129)) = some [0xe034575303315f76, 0, 0, 0, 0x041] := by
  decide +kernel
theorem test_h64s_iota_33 : shown (exec .h64s (iotaS 33 1 0)) = some [0xc1fd93d7c090aa54, 0, 0, 0, 0x041] := by
  decide +kernel
theorem test_h64s_iota_3 : shown (exec .h64s (iotaS 3 1 0)) = some [0x7c01946581ff9b8b, 0, 0, 0, 0x041] := by
  decide +kernel
theorem test_h64ss_iota_7 : shown (exec .h64ss (iotaS 7 1 2)) = some [0x0c2cc9cdcf87cbe4, 0, 0, 0, 0x041] := by
  decide +kernel
theorem test_h64ss_iota_17 : shown (exec .h64ss (iotaS 17 1 2)) = some [0x0d15953d02a45ffb, 0, 0, 0, 0x041] := by
  decide +kernel
theorem test_h128_iota_65 :
    shown (exec .h128 (iota 65)) = some [0x6bdc67f5c1602941, 0xe356c14c3f5e098d, 0, 0, 0x081] := by decide +kernel
theorem test_h128s_iota_0 :
    shown (exec .h128s (iotaS 0 1 2)) = some [0x88fdd8a295f70e32, 0x2207e1b2cad025f4, 0, 0, 0x081] := by
  decide +kernel
theorem test_h256_iota_31 : shown (exec .h256 (iota 31)) =
    some [0xf229fecb3a24036f, 0x9facd0479fb2049c, 0x487468c60b0aea76, 0x47f844c3f85b4b49, 0x101] := by decide +kernel
theorem test_h256_iota_33 : shown (exec .h256 (iota 33)) =
    some [0x68bea29c8d033f28, 0x0b0be336df21b76b, 0xbb3848a4cc2aa0e2, 0x30cc97a141d000fc, 0x101] := by decide +kernel
theorem test_h128c_iota_65 :
    shown (exec .h128c (iota 65)) = some [0x7d954e2495f3ad7a, 0x529f0c4faed9e082, 0, 0, 0x081] := by decide +kernel
theorem test_h128c_iota_63 :
    shown (exec .h128c (iota 63)) = some [0xd8c439d0ff1d6638, 0xdab0ad43eb897a54, 0, 0, 0x081] := by decide +kernel
theorem test_capq_hw : shown (exec .capq (iota 0)) = some [1, 0, 0, 0, 0x041] := by decide +kernel
theorem test_capq_sw : shown (exec .capq (withCap (iota 0) 0x1a)) = some [0, 0, 0, 0, 0x041] := by decide +kernel
theorem test_rot64i_37 : shown (exec (.rot64i 37) (prim 0x0123456789abcdef 0 0)) =
    some [0x3c4d5e6f78091a2b, 0, 0, 0, 0x041] := by decide +kernel
theorem test_rot64i_0 : shown (exec (.rot64i 0) (prim 0x0123456789abcdef 0 0)) =
    some [0x0123456789abcdef, 0, 0, 0, 0x041] := by decide +kernel
theorem test_rot64r_45 : shown (exec .rot64r (prim 0x0123456789abcdef 0x45 0)) =
    some [0x78091a2b3c4d5e6f, 0, 0, 0, 0x041] := by decide +kernel
theorem test_rot32i_8 : shown (exec (.rot32i 8) (prim 0x0123456789abcdef 0 0)) =
    some [0x00000000ef89abcd, 0, 0, 0, 0x041] := by decide +kernel
theorem test_rot32r_31 : shown (exec .rot32r (prim 0x0123456789abcdef 0x31 0)) =
    some [0x00000000e6f7c4d5, 0, 0, 0, 0x041] := by decide +kernel
theorem test_shmix : shown (exec .shmix (prim 0x0123456789abcdef 0 0)) =
    some [0x0123456789abcfa9, 0, 0, 0, 0x041] := by decide +kernel
theorem test_fold : shown (exec .fold (prim 1 2 0)) = some [0x86668a560ec835a1, 0, 0, 0, 0x041] := by decide +kernel
theorem test_fold_not_symmetric : shown (exec .fold (prim 2 1 0)) = some [0xd1aa4377fbb56312, 0, 0, 0, 0x041] := by
  decide +kernel
theorem test_foldm : shown (exec .foldm (prim 1 2 0x9ae16a3b2f90404f)) =
    some [0xb1bb418e84ddda0b, 0, 0, 0, 0x041] := by decide +kernel
theorem test_foldm_even : shown (exec .foldm (prim 1 2 2)) = some [0x10, 0, 0, 0, 0x041] := by decide +kernel
theorem test_wmix_last_offset : shown (exec .wmix (iotaX 40 1 2 8)) =
    some [0x6c6864605c585451, 0x6422fa20dfafde9d, 0, 0, 0x081] := by decide +kernel
theorem test_wmix_beyond : shown (exec .wmix (iotaX 40 1 2 9)) = some [0, 0, 0, 0, 0x207] := by decide +kernel
theorem test_fetch32_36 : shown (exec .fetch32 (iotaX 40 36 0 0)) = some [0x27262524, 0, 0, 0, 0x041] := by
  decide +kernel
theorem test_fetch32_37 : shown (exec .fetch32 (iotaX 40 37 0 0)) = some [0, 0, 0, 0, 0x207] := by decide +kernel
theorem test_fetch64_3 : shown (exec .fetch64 (iotaX 40 3 0 0)) = some [0x0a09080706050403, 0, 0, 0, 0x041] := by
  decide +kernel
theorem test_fetch64_no_wrap : shown (exec .fetch64 (iotaX 40 0xfffffffffffffff9 0 0)) = some [0, 0, 0, 0, 0x207] := by
  decide +kernel
theorem test_mur32 : shown (exec .mur32 (prim 0xdeadbeef00000001 2 0)) = some [0x26d04576, 0, 0, 0, 0x041] := by
  decide +kernel
theorem test_fmix32 : shown (exec .fmix32 (prim 0xdeadbeef00000001 0 0)) = some [0x514e28b7, 0, 0, 0, 0x041] := by
  decide +kernel
theorem test_crc64 : shown (exec .crc64 (prim 0xffffffff 0x3837363534333231 0)) =
    some [0x9f787f65, 0, 0, 0, 0x041] := by decide +kernel
theorem test_crc64_none : shown (exec .crc64 (withCap (prim 0xffffffff 0 0) 0x10)) = some [0, 0, 0, 0, 0x20b] := by
  decide +kernel

/-- The steps of R133 (spec/95_test_vectors.md 4.1). -/
theorem test_absorb16 : absorb16 Config.standard 1 2 3 4 = (0xc12093aeacd838a7, 0x00dbcf5ad3e6f85f) := by decide +kernel

/-- The first remainders of the byte-wise form (spec/95_test_vectors.md 4.1). -/
theorem test_crc_byte_wise : crcStepBytes Config.standard 0x40 0x0706050403020100 = 0x1c04c583 := by decide +kernel

/-! ### Errors, reset and the host port (spec/95_test_vectors.md 4.5 and 4.6) -/

/-- The buffer check at the top of the address space. -/
theorem test_buffer_check :
    shown (exec .h64 { iota 0 with eng := { (iota 0).eng with ptr := 0xffffffffffffffff, len := 2 } }) =
      some [0, 0, 0, 0, 0x207]
    ∧ shown (exec .h64 { iota 0 with eng := { (iota 0).eng with ptr := 0xffffffffffffffff, len := 1 } }) =
      some [0x81cae77b6ad9aea2, 0, 0, 0, 0x041] := by decide +kernel

/-- An illegal word comes before a missing capability, and that before a bad buffer. -/
theorem test_error_priority :
    shown (State.issue { iota 0 with eng := { (iota 0).eng with ptr := 0xffffffffffffffff, len := 2, cap := 0 } } 0x117) =
      some [0, 0, 0, 0, 0x20f]
    ∧ shown (State.issue { iota 0 with eng := { (iota 0).eng with ptr := 0xffffffffffffffff, len := 2, cap := 0 } } 0x17) =
      some [0, 0, 0, 0, 0x20b] := by decide +kernel

/-- The sticky bit stays through a success, and a one-word success clears D1 to D3. -/
theorem test_sticky_after_error :
    shown (exec .h64 { iota 40 with
      eng := { (iota 40).eng with d0 := 1, d1 := 2, d2 := 3, d3 := 4, status := 0x20f } }) =
      some [0x10f6178409b08e9e, 0, 0, 0, 0x241] := by decide +kernel

/-- The strap table of spec/95_test_vectors.md 4.6. -/
theorem test_strap_table :
    [capOf ⟨false, false, false, false⟩, capOf ⟨false, false, false, true⟩, capOf ⟨false, true, false, false⟩,
     capOf ⟨false, true, false, true⟩, capOf ⟨false, true, true, false⟩, capOf ⟨false, true, true, true⟩,
     capOf ⟨true, false, false, false⟩, capOf ⟨true, false, true, true⟩, capOf ⟨true, true, false, true⟩] =
    [0x00, 0x0a, 0x10, 0x1a, 0x15, 0x1d, 0x05, 0x0d, 0x1a] := by decide

theorem test_reset_registers : [0x08, 0x10, 0x20, 0x28, 0x30, 0x38, 0x40, 0x48, 0x50, 0x60, 0x68, 0x70, 0x78].map
    State.reset.eng.readReg = [0, 0x0d, 0, 0, 0, 0, 0, 0, 0, 0, 0, 0, 0] := by decide

/-- R229: H64 as the first command after reset, placed where `step` takes its next instruction. -/
theorem test_first_command : shown (step (State.reset.withFetchWord 32 0x11)) =
    some [0xac2751be0b197ffb, 0, 0, 0, 0x041] := by decide +kernel

theorem test_write_operand : shownReg (step (pending (.wr 0x48 8 5))) 0x48 = some 5 := by decide
theorem test_write_ignored : [0x08, 0x10, 0x18, 0x58, 0x60, 0x80].map
    (fun o => shownReg (step (pending (.wr o 8 0xffffffffffffffff))) o) =
      [some 0, some 0x0d, some 0, some 0, some 0, some 0] := by decide
theorem test_read_cap : shownReply (step (pending (.rd 0x10 8))) = some (.data 0x0d) := by decide
theorem test_read_cmd : shownReply (step (pending (.rd 0x00 8))) = some (.data 0) := by decide
theorem test_narrow_access_refused : step (pending (.rd 0x10 4)) = .refused (.notWholeRegister 0x10 4) := rfl
theorem test_misaligned_access_refused : step (pending (.wr 0x24 8 1)) = .refused (.notWholeRegister 0x24 8) := rfl
theorem test_no_block_refused : step (pending (.rd 0x100 8)) = .refused (.noRegisterBlock 0x100) := rfl
theorem test_write_cut_by_reset : shown (step { pending (.wrCut 0 8 0x11) with
    eng := { State.reset.eng with d0 := 7, status := 0x20f } }) = some [0, 0, 0, 0, 0] := by decide
/-- A narrow write in no register block that reset cuts is not refused (the model's choice, log 9). -/
theorem test_odd_write_cut_by_reset : shownReply (step (pending (.wrCut 0x1003 4 0x11))) = some .abandoned := by decide
theorem test_second_engine : shownReg (step (two [.wr 0x148 8 5])) 0x48 = some 5 := by decide

/-- Memory: a store, its overwrite, and the store of the byte an unlisted address reads as. -/
theorem test_memory : writeByte (writeByte [] 5 7) 3 9 = [(3, 9), (5, 7)]
    ∧ writeByte [(3, 9), (5, 7)] 3 0 = [(5, 7)] ∧ memRead (iotaAt 0x1000 8) 0x1001 4 = 0x04030201 := by decide

/-! ### The assembler (spec/30_encoding.md R72; spec/95_test_vectors.md section 3) -/

theorem test_read_line_immediate : readLine ['R', 'O', 'T', '6', '4', 'I', ' ', '#', '3', '7'] =
    some (.command (.rot64i 37)) := by decide
theorem test_read_line_write : readLine ['W', 'R', ' ', 'L', 'E', 'N', ',', ' ', '0', 'x', '4', '0', ' ', ';', 'n'] =
    some (.wr .len 0x40) := by decide
theorem test_read_line_refuses : readLine ['R', 'O', 'T', '3', '2', 'I', ' ', '#', '3', '2'] = none
    ∧ readLine ['W', 'R', ' ', 'D', '0', ',', ' ', '1'] = none := by decide

/-! ### Witnesses: the hypotheses of each statement are met, at the ends of their ranges -/

theorem witness_DecodeEncodeRoundTrip : (Instr.rot64i 63).wellFormed = true ∧ (Instr.rot32i 31).wellFormed = true
    ∧ Instr.crc64.wellFormed = true := by decide

theorem witness_LegalCommandWords : ((0x10, .h32) : Word × Instr) ∈ plainWords
    ∧ ((0x2C, .crc64) : Word × Instr) ∈ plainWords := by decide

/-- The hypotheses on the pending operation and the address. -/
theorem witness_IllegalValues_pending :
    (pending (.wr 0 8 0x4011)).queue = [.wr 0 8 0x4011] ∧ Config.locate (pending (.wr 0 8 0x4011)).cfg 0 = some (0, 0)
    ∧ 0 < (pending (.wr 0 8 0x4011)).engines.length := by decide

/-- One value for each clause of R70 that no other clause takes, and both ends of the written value. -/
theorem witness_IllegalValues_clauses : (0x4011 : Word) >>> 14 ≠ 0
    ∧ (0x19 : Word).extractLsb' 0 8 ∉ assignedOpcodes
    ∧ ((0x0111 : Word).extractLsb' 8 6 ≠ 0 ∧ (0x0111 : Word).extractLsb' 0 8 ≠ 0x20
      ∧ (0x0111 : Word).extractLsb' 0 8 ≠ 0x22)
    ∧ ((0x2022 : Word).extractLsb' 0 8 = 0x22 ∧ ((0x2022 : Word).extractLsb' 8 6).toNat ≥ 32)
    ∧ IllegalValue 0 ∧ IllegalValue 0xffffffffffffffff ∧ ¬ IllegalValue 0x3f20 ∧ ¬ IllegalValue 0x1f22 := by
  unfold IllegalValue; decide

theorem witness_StepRunsDecodedCommand :
    (pending (.wr 0 8 0x1f22)).queue = [.wr 0 8 0x1f22] ∧ Config.locate (pending (.wr 0 8 0x1f22)).cfg 0 = some (0, 0)
    ∧ 0 < (pending (.wr 0 8 0x1f22)).engines.length ∧ decode 0x1f22 = .command (.rot32i 31) := by decide

theorem witness_IdleStepChangesNothing : State.reset.queue = [] := by decide

/-- A read at the last offset of a block with a register, of the second of two engines. -/
theorem witness_HostReadReturnsRegister : (two [.rd 0x178 8]).queue = [.rd 0x178 8]
    ∧ Config.locate (two [.rd 0x178 8]).cfg 0x178 = some (1, 0x78) ∧ 0x78 % 8 = 0
    ∧ 1 < (two [.rd 0x178 8]).engines.length := by decide

/-- A write to an operand register and one to a read-only register. -/
theorem witness_HostWriteSetsOperandRegister :
    ((two [.wr 0x150 8 5]).queue = [.wr 0x150 8 5] ∧ Config.locate (two [.wr 0x150 8 5]).cfg 0x150 = some (1, 0x50)
      ∧ 1 < (two [.wr 0x150 8 5]).engines.length ∧ 0x50 ∈ operandOffsets)
    ∧ ((pending (.wr 8 8 5)).queue = [.wr 8 8 5] ∧ Config.locate (pending (.wr 8 8 5)).cfg 8 = some (0, 8)
      ∧ 0 < (pending (.wr 8 8 5)).engines.length ∧ 8 ∉ operandOffsets) := by decide

/-- A narrow access, a misaligned one, and the first address after the block. -/
theorem witness_OddHostAccessesAreRefused :
    (pending (.rd 0x40 4)).queue = [.rd 0x40 4] ∧ Config.locate (pending (.rd 0x40 4)).cfg 0x40 = some (0, 0x40)
    ∧ (pending (.wr 0x44 8 1)).queue = [.wr 0x44 8 1]
    ∧ Config.locate (pending (.wr 0x44 8 1)).cfg 0x44 = some (0, 0x44) ∧ 0x44 % 8 ≠ 0
    ∧ (pending (.rd 0x100 8)).queue = [.rd 0x100 8] ∧ Config.locate (pending (.rd 0x100 8)).cfg 0x100 = none := by
  decide

theorem witness_HostAddressNamesOneRegister : Config.standard.wellFormed = true ∧ twoConfig.wellFormed = true
    ∧ Config.locate twoConfig 0xff = some (0, 0xff) ∧ Config.locate twoConfig 0x100 = some (1, 0)
    ∧ Config.locate twoConfig 0x200 = none := by decide +kernel

/-- The last byte of the address space, and the first address beyond it. -/
theorem witness_HostStoreWritesOneByte :
    (pending (.store 0xffffffffffffffff 7)).queue = [.store 0xffffffffffffffff 7]
    ∧ (pending (.store 0xffffffffffffffff 7)).mem.wf
    ∧ 0xffffffffffffffff < 2 ^ (pending (.store 0xffffffffffffffff 7)).cfg.aw
    ∧ 2 ^ (pending (.store 0x10000000000000000 7)).cfg.aw ≤ 0x10000000000000000 := by decide +kernel

theorem witness_ResetClearsEveryEngine : HostOp.isReset .reset = true ∧ HostOp.isReset (.wrCut 0 8 0x11) = true
    ∧ (two [.reset]).queue = [.reset] := by decide

/-- A change of the straps to other levels, the reset event, and an operation that changes no strap. -/
theorem witness_LatchChangesOnlyAtReset :
    Straps.standard ≠ ⟨false, false, false, false⟩ ∧ (∀ p, HostOp.rd 0 8 ≠ .straps p)
    ∧ (∃ t, (pending (.straps ⟨false, false, false, false⟩)).queue = [.straps ⟨false, false, false, false⟩]
      ∧ step (pending (.straps ⟨false, false, false, false⟩)) = .next t
      ∧ HostOp.isReset (.straps ⟨false, false, false, false⟩) = false)
    ∧ ∃ t, (pending .reset).queue = [.reset] ∧ step (pending .reset) = .next t ∧ HostOp.isReset .reset = true :=
  ⟨by decide, nofun, ⟨_, rfl, rfl, rfl⟩, _, rfl, rfl, rfl⟩

/-- A strap change after reset takes effect on CAP at the next reset only (R226). -/
theorem test_straps_until_reset :
    shownReg (step (pending (.straps ⟨false, false, false, true⟩))) 0x10 = some 0x0d
    ∧ shownReg (step { pending .reset with pins := ⟨false, false, false, true⟩ }) 0x10 = some 0x0a := by decide

/-- A command after an error (the sticky bit is set), and the reset event. -/
theorem witness_StickyErrorClearedOnlyByReset :
    (∃ t e f, (two [.wr 0 8 0, .wr 0 8 0x18]).queue = [.wr 0 8 0, .wr 0 8 0x18]
      ∧ step (two [.wr 0 8 0, .wr 0 8 0x18]) = .next t ∧ t.engines[0]? = some e ∧ statusSerr e.status = true
      ∧ step t = .next f ∧ HostOp.isReset (.wr 0 8 0x18) = false ∧ t.queue = [.wr 0 8 0x18])
    ∧ ∃ t, step (pending .reset) = .next t ∧ t.engines[0]? = some t.eng ∧ HostOp.isReset .reset = true :=
  ⟨⟨_, _, _, rfl, rfl, rfl, rfl, rfl, rfl, rfl⟩, _, rfl, rfl, rfl⟩

/-- One value for each branch: no capability, a bad buffer, a bad offset, no error. -/
theorem witness_ErrorPriority : ¬ IllegalValue 0x17 ∧ ¬ IllegalValue 0x29 ∧ capCrcsel (withCap (iota 0) 0x10).eng.cap = 0
    ∧ (iotaX 40 33 0 0).eng.ptr.toNat + (iotaX 40 33 0 0).eng.len.toNat ≤ 2 ^ (iotaX 40 33 0 0).cfg.aw
    ∧ (iotaX 40 33 0 0).eng.x0.toNat + 8 > (iotaX 40 33 0 0).eng.len.toNat := by
  unfold IllegalValue; decide +kernel

theorem witness_CapabilityErrorExactlyWhenNone : capCrcsel (withCap (iota 0) 0x10).eng.cap = 0
    ∧ capCrcsel (withCap (iota 0) 0x0a).eng.cap ≠ 0 ∧ (Instr.capq ≠ .h128c ∧ Instr.capq ≠ .crc64) := by decide

/-- A buffer one byte too long, and an offset one too far for each of the three commands. -/
theorem witness_BadBufferOrOffsetIsInvalidArgument : Instr.h128c ∈ readsBuffer ∧ capCrcsel State.reset.eng.cap ≠ 0
    ∧ (0xffffffffffffffff : Word).toNat + (2 : Word).toNat > 2 ^ Config.standard.aw
    ∧ (iotaX 40 37 0 0).eng.x0.toNat + 4 > (iotaX 40 37 0 0).eng.len.toNat
    ∧ (iotaX 40 33 0 0).eng.x0.toNat + 8 > (iotaX 40 33 0 0).eng.len.toNat
    ∧ (iotaX 40 0 0 9).eng.x2.toNat + 32 > (iotaX 40 0 0 9).eng.len.toNat := by decide +kernel

theorem witness_Rot32CommandsRotateRight : (31 : BitVec 6).toNat ≤ 31 ∧ 32 ≤ (32 : BitVec 6).toNat := by decide

theorem witness_WmixMixesFourBufferWords : (iotaX 40 1 2 8).bufferFits
    ∧ (iotaX 40 1 2 8).eng.x2.toNat + 32 ≤ (iotaX 40 1 2 8).eng.len.toNat := by
  unfold State.bufferFits; decide +kernel

theorem witness_FetchCommandsReturnBufferBytes : (iotaX 40 36 0 0).bufferFits
    ∧ (iotaX 40 36 0 0).eng.x0.toNat + 4 ≤ (iotaX 40 36 0 0).eng.len.toNat
    ∧ (iotaX 40 32 0 0).bufferFits ∧ (iotaX 40 32 0 0).eng.x0.toNat + 8 ≤ (iotaX 40 32 0 0).eng.len.toNat := by
  unfold State.bufferFits; decide +kernel

theorem witness_Crc64AdvancesRemainder : capCrcsel State.reset.eng.cap ≠ 0 := by decide

theorem witness_Fmix32IsBijective : Config.standard.f1.toNat % 2 = 1 ∧ Config.standard.f2.toNat % 2 = 1 := by decide

theorem witness_FoldIsBijectiveInFirstOperand : oddWord Config.standard.kmul = true := by decide

theorem witness_AbsorbersAreBijective : oddWord Config.standard.k1 = true := by decide

/-- A buffer that ends at the last byte of the address space fits. -/
theorem witness_CoreDigestCommands : (iota 65).bufferFits ∧ State.bufferFits { iota 0 with
    eng := { (iota 0).eng with ptr := 0xffffffffffffffff, len := 1 } } := by
  unfold State.bufferFits; decide +kernel

/-- Both ends of B0 to B3. -/
theorem witness_CoreShortBuckets : [(iota 0).buffer.len, (iota 1).buffer.len, (iota 3).buffer.len, (iota 4).buffer.len,
    (iota 7).buffer.len, (iota 8).buffer.len, (iota 16).buffer.len] = [0, 1, 3, 4, 7, 8, 16] := by decide +kernel

/-- Both ends of B4 and B5. -/
theorem witness_CoreMiddleBuckets : [(iota 17).buffer.len, (iota 32).buffer.len, (iota 33).buffer.len,
    (iota 64).buffer.len] = [17, 32, 33, 64] := by decide +kernel

theorem witness_CoreLongBucket : 65 ≤ (iota 65).buffer.len := by decide +kernel

theorem witness_LengthMultiplierIsOdd : oddWord Config.standard.k2 = true := by decide

theorem witness_PackedWordIsOneToOne : 1 ≤ (iota 3).buffer.len ∧ (iota 3).buffer.len ≤ 3
    ∧ packB1 (iota 3).buffer = packB1 { (iota 3).buffer with mem := iotaAt 0x2000 3, base := 0x2000 } := by
  decide +kernel

theorem witness_DefaultSeedsReplaceCallerSeeds : (iotaS 100 1 2).bufferFits := by
  unfold State.bufferFits; decide +kernel

/-- The longest and the empty buffer. -/
theorem witness_ShortDigestsSeparateFirstSeeds : oddWord (iotaS 7 1 2).cfg.k2 = true ∧ (iotaS 7 1 2).bufferFits
    ∧ (iotaS 7 1 2).eng.len.toNat ≤ 7 ∧ (0 : Word) ≠ (iotaS 7 1 2).eng.seed0 ∧ (iotaS 0 1 2).bufferFits
    ∧ (0 : Word) ≠ (iotaS 0 1 2).eng.seed0 := by
  unfold State.bufferFits; decide +kernel

theorem witness_WideDigestCommands : (iotaS 65 1 2).bufferFits := by
  unfold State.bufferFits; decide +kernel

theorem witness_LaneSeedPairsDiffer : Config.standard.k0 ≠ Config.standard.k1 := by decide

/-- The longest buffer of the short path and the shortest of the long path. -/
theorem witness_H256FourLanes : (iota 31).bufferFits ∧ (iota 31).eng.len.toNat < 32 ∧ (iota 32).bufferFits
    ∧ 32 ≤ (iota 32).eng.len.toNat := by
  unfold State.bufferFits; decide +kernel

theorem witness_ShortH128cIsH128 : capCrcsel (iota 63).eng.cap ≠ 0 ∧ (iota 63).bufferFits
    ∧ (iota 63).eng.len.toNat < 64 := by
  unfold State.bufferFits; decide +kernel

theorem witness_LongH128cWalksCrcStrides : capCrcsel (iota 64).eng.cap ≠ 0 ∧ (iota 64).bufferFits
    ∧ 64 ≤ (iota 64).eng.len.toNat := by
  unfold State.bufferFits; decide +kernel

/-- The latch under hardware and under the software fallback. -/
theorem witness_CrcPathsAgree : capCrcsel (0x0d : Word) = crcselHw ∧ capCrcsel (0x0a : Word) = crcselSw
    ∧ capCrcsel (iota 64).eng.cap ≠ 0 ∧ capCrcsel (0x0a : Word) ≠ 0 := by decide

theorem witness_ResetStateMeetsInvariant : 1 ≤ twoConfig.neng := by decide

/-- A state with a command pending meets the invariant, and its step answers a next state. -/
theorem witness_EveryStepKeepsInvariant : (pending (.wr 0 8 0x11)).Inv
    ∧ ∃ t, step (pending (.wr 0 8 0x11)) = .next t := by
  constructor
  · constructor
    · decide
    · decide
    · decide
    · intro e he
      simp only [pending, State.engines, State.reset, State.resetWith, Config.standard, Config.neng, List.length_cons,
        List.length_nil, Nat.zero_add, Nat.sub_self, List.replicate_zero, List.nil_append, List.mem_singleton] at he
      subst he
      refine ⟨⟨by decide, by decide, by decide, by decide, by decide, by decide, by decide⟩, ⟨_, rfl⟩, ?_, ?_, ?_, ?_⟩
        <;> intro <;> rfl
    · decide
  · exact ⟨_, rfl⟩

/-- The same buffer in two memories that differ outside it, in states that differ in STATUS and in the results. -/
theorem witness_CommandDependsOnlyOnItsInputs : State.SameInputs (iota 3) { iota 3 with
    mem := writeByte (iotaAt 0x1000 3) 0x1003 9, eng := { (iota 3).eng with d0 := 5, status := 0x041 } } := by
  constructor
  · decide
  · exact ⟨by decide, by decide, by decide, by decide, by decide, by decide, by decide, by decide⟩
  · decide
  · decide +kernel

theorem witness_UnlistedOperandsAreIgnored : (∀ o ∈ operandsRead .fold,
      (prim 1 2 9).eng.registerMap.lookup o = (prim 1 2 0).eng.registerMap.lookup o) ∧ Instr.fold ∉ readsLatch
    ∧ Instr.fold ∉ readsBuffer ∧ statusSerr (prim 1 2 9).eng.status = statusSerr (prim 1 2 0).eng.status
    ∧ (prim 1 2 9).eng ≠ (prim 1 2 0).eng := by decide

/-- IOTA(3) at 0x1000 and at 0x2001. -/
theorem witness_BufferPlaceIsIrrelevant : State.SameBytes (iota 3) { iota 3 with
    mem := iotaAt 0x2001 3, eng := { (iota 3).eng with ptr := 0x2001 } } := by
  constructor
  · decide
  · decide
  · decide
  · decide
  · decide
  · decide
  · decide
  · decide
  · decide
  · unfold State.bufferFits; decide +kernel
  · unfold State.bufferFits; decide +kernel
  · decide +kernel

theorem witness_OtherEnginesAreUntouched : ∃ t, (two [.wr 0x100 8 0x11]).queue = [.wr 0x100 8 0x11]
    ∧ Config.locate (two [.wr 0x100 8 0x11]).cfg 0x100 = some (1, 0) ∧ 0 ≠ 1
    ∧ step (two [.wr 0x100 8 0x11]) = .next t := ⟨_, rfl, rfl, by decide, rfl⟩

/-- A command on engine 0 and a register write on engine 1. -/
theorem witness_DifferentEnginesCommute : Config.locate (two []).cfg 0 = some (0, 0)
    ∧ Config.locate (two []).cfg 0x148 = some (1, 0x48) ∧ 0 ≠ 1 ∧ 0 % 8 = 0 ∧ 0x48 % 8 = 0
    ∧ 0 < (two []).engines.length ∧ 1 < (two []).engines.length := by decide

/-- The WR lines in another order than R73 writes them. -/
theorem witness_PseudoInstructionIsOneDigestCall : (two []).cfg.wellFormed = true
    ∧ (two []).engines.length = (two []).cfg.neng ∧ (two []).queue = []
    ∧ ([Line.wr .seed0 1, Line.wr .len 3, Line.wr .ptr 0x1000] ++ [Line.command .h64s]).Perm
      (Pseudo.hash64s 0x1000 3 1).lines := by decide +kernel

end Sys2Proof.Tests
end

/-!
SUPPORT. The register map as the host sees it (spec/20_memory.md R57): what a read returns, what a write sets.
-/

namespace Sys2Proof.Machine

/-- What a host read returns is the entry of the register map, 0 where there is none (R26, R27, R57). -/
theorem Engine.lookup_registerMap (e : Engine) (o : Nat) : (e.registerMap.lookup o).getD 0 = e.readReg o := by
  unfold Engine.readReg
  split
  case h_14 =>
    rw [List.lookup_eq_none_iff.mpr (by simp_all [Engine.registerMap])]
    rfl
  all_goals rfl

/-- A host write to an offset that is no operand register is ignored (R21, R24, R25, R27). -/
theorem Engine.writeReg_of_not_operand (e : Engine) {off : Nat} (v : Word) (h : off ∉ operandOffsets) :
    e.writeReg off v = e := by
  simp only [operandOffsets, List.mem_cons, List.not_mem_nil, or_false, not_or] at h
  unfold Engine.writeReg
  split <;> simp_all

/-- Reading a register after a host write to an operand register: the value there, the old register elsewhere. -/
theorem Engine.readReg_writeReg_operand (e : Engine) {off : Nat} (v : Word) (h : off ∈ operandOffsets) (o : Nat) :
    (e.writeReg off v).readReg o = if o = off then v else e.readReg o := by
  simp only [operandOffsets, List.mem_cons, List.not_mem_nil, or_false] at h
  split
  case isTrue ho => subst ho; rcases h with rfl | rfl | rfl | rfl | rfl | rfl | rfl <;> rfl
  case isFalse ho =>
    rcases h with rfl | rfl | rfl | rfl | rfl | rfl | rfl <;>
      simp only [Engine.writeReg] <;> unfold Engine.readReg <;> split <;> simp_all

/-- Reading a register after a host write to any offset. -/
theorem Engine.readReg_writeReg (e : Engine) (off o : Nat) (v : Word) :
    (e.writeReg off v).readReg o = if o = off ∧ off ∈ operandOffsets then v else e.readReg o := by
  by_cases h : off ∈ operandOffsets
  · simp [h, e.readReg_writeReg_operand v h]
  · simp [h, e.writeReg_of_not_operand v h]

end Sys2Proof.Machine

/-!
SUPPORT. What a host operation does to the machine, said once (spec/20_memory.md R56 to R58, spec/30_encoding.md R64,
spec/70_reset_and_hazards.md R225 to R232): a register transaction puts one engine in the foreground and changes that engine
alone, in one of four ways; a store, a strap change and the reset event are one update each.
-/

namespace Sys2Proof.Machine

/-- What one register transaction can do to the register file it addresses: nothing (a read), a register write, or the
completion update of a command (R28). -/
inductive Engine.Transacted (e : Engine) : Engine → Prop
  | read : e.Transacted e
  | write (off : Nat) (v : Word) : e.Transacted (e.writeReg off v)
  | success (r : ResultWords) : e.Transacted (e.complete r)
  | error (x : CmdError) : e.Transacted (e.fail x)

/-- `t` is `s` after a register transaction with engine `j`, whose registers were `e`: engine `j` is in the foreground, and no
other engine, no byte of memory, no parameter, no strap and nothing pending has changed (R214). -/
structure State.Transaction (s t : State) (j : Nat) (e : Engine) : Prop where
  before : s.engines[j]? = some e
  after : e.Transacted t.eng
  front : t.lower.length = j
  engines : t.engines = s.engines.set j t.eng
  mem : t.mem = s.mem
  cfg : t.cfg = s.cfg
  pins : t.pins = s.pins
  queue : t.queue = s.queue

/-- What a host operation can do to the machine, operation by operation. -/
inductive State.HostEffect (s : State) : HostOp → State → Prop
  | read {addr size j off e t} (hl : Config.locate s.cfg addr = some (j, off)) (h : s.Transaction t j e) :
      s.HostEffect (.rd addr size) t
  | write {addr size v j off e t} (hl : Config.locate s.cfg addr = some (j, off)) (h : s.Transaction t j e) :
      s.HostEffect (.wr addr size v) t
  | store {addr b} (h : addr < 2 ^ s.cfg.aw) :
      s.HostEffect (.store addr b) { s with mem := writeByte s.mem addr b, reply := .none }
  | straps (p : Straps) : s.HostEffect (.straps p) { s with pins := p, reply := .none }
  | reset {op : HostOp} (h : op.isReset = true) (r : Reply) : s.HostEffect op { s.resetEvent with reply := r }

/-- Replacing the foreground engine replaces its entry in the list of the engines. -/
theorem State.engines_of_others_eq {s t : State} (hl : t.lower = s.lower) (hu : t.upper = s.upper) :
    t.engines = s.engines.set s.lower.length t.eng := by
  simp [State.engines, hl, hu]

/-- The foreground engine is one of the engines. -/
theorem State.eng_mem_engines (s : State) : s.eng ∈ s.engines := by simp [State.engines]

/-- Bringing engine `j` to the foreground and then changing at most that engine and the reply is a transaction with it. -/
theorem State.transaction_of_focus {s u t : State} {j : Nat} (hf : s.focus j = some u) (ha : u.eng.Transacted t.eng)
    (hl : t.lower = u.lower) (hu : t.upper = u.upper) (hm : t.mem = u.mem) (hc : t.cfg = u.cfg) (hp : t.pins = u.pins)
    (hq : t.queue = u.queue) : s.Transaction t j u.eng := by
  obtain ⟨hengines, hfront, heng, hcfg, hpins, hmem, hqueue, -⟩ := State.focus_spec hf
  exact
    { before := heng, after := ha, front := by rw [hl, hfront]
      engines := by rw [State.engines_of_others_eq hl hu, hengines, hfront]
      mem := hm.trans hmem, cfg := hc.trans hcfg, pins := hp.trans hpins, queue := hq.trans hqueue }

/-- A host read that answers is a transaction that changes no register. -/
theorem State.hostRead_next {s t : State} {addr size : Nat} (h : s.hostRead addr size = .next t) :
    ∃ j off e, Config.locate s.cfg addr = some (j, off) ∧ s.Transaction t j e := by
  unfold State.hostRead at h
  split at h
  case h_1 => simp at h
  case h_2 u off htarget =>
    obtain ⟨j, hlocate, hfocus, -, -⟩ := State.target_reg htarget
    injection h with h
    subst h
    exact ⟨j, off, u.eng, hlocate, State.transaction_of_focus hfocus .read rfl rfl rfl rfl rfl rfl⟩

/-- A value written to CMD changes nothing but the foreground engine, by its completion update (R28, R29). -/
theorem State.issue_next {s t : State} {v : Word} (h : s.issue v = .next t) :
    s.eng.Transacted t.eng ∧ s.CommandFrame t := by
  rcases s.issue_cases v with ⟨r, hr⟩ | ⟨x, hx⟩
  · obtain rfl : s.complete r = t := by simpa [hr] using h
    exact ⟨.success r, s.complete_frame r⟩
  · obtain rfl : s.raise x = t := by simpa [hx] using h
    exact ⟨.error x, s.raise_frame x⟩

/-- A host write that answers is a transaction: a command on the engine (offset 0), or a register write. -/
theorem State.hostWrite_next {s t : State} {addr size : Nat} {v : Word} (h : s.hostWrite addr size v = .next t) :
    ∃ j off e, Config.locate s.cfg addr = some (j, off) ∧ s.Transaction t j e := by
  unfold State.hostWrite at h
  split at h
  case h_1 => simp at h
  case h_2 u off htarget =>
    obtain ⟨j, hlocate, hfocus, -, -⟩ := State.target_reg htarget
    refine ⟨j, off, u.eng, hlocate, ?_⟩
    split at h
    · obtain ⟨hafter, hframe⟩ := State.issue_next h
      exact State.transaction_of_focus hfocus hafter hframe.lower hframe.upper hframe.memoryList hframe.cfg hframe.pins
        hframe.queue
    · injection h with h
      subst h
      exact State.transaction_of_focus hfocus (.write off v) rfl rfl rfl rfl rfl rfl

/-- A host operation that answers a next state has one of the effects of `HostEffect`. -/
theorem State.hostOp_next {s t : State} {op : HostOp} (h : s.hostOp op = .next t) : s.HostEffect op t := by
  cases op with
  | rd addr size =>
    obtain ⟨j, off, e, hlocate, htrans⟩ := State.hostRead_next h
    exact .read hlocate htrans
  | wr addr size v =>
    obtain ⟨j, off, e, hlocate, htrans⟩ := State.hostWrite_next h
    exact .write hlocate htrans
  | store addr b =>
    simp only [State.hostOp, State.hostStore] at h
    split at h
    case isTrue haddr => injection h with h; subst h; exact .store haddr
    case isFalse => simp at h
  | straps p => injection h with h; subst h; exact .straps p
  | reset => injection h with h; subst h; exact .reset rfl .none
  | wrCut addr size v => injection h with h; subst h; exact .reset rfl .abandoned

/-- A step that performs an operation and answers a next state has the effect of that operation on the state without it. -/
theorem step_hostEffect {s t : State} {op : HostOp} {rest : List HostOp} (hq : s.queue = op :: rest)
    (h : step s = .next t) : { s with queue := rest }.HostEffect op t :=
  State.hostOp_next (step_cons hq ▸ h)

end Sys2Proof.Machine

/-!
SUPPORT. Host register accesses to an existing engine (spec/20_memory.md R57, R58): the settled statements O7 and O8.
-/

namespace Sys2Proof.Machine

/-- With a whole aligned access to an existing engine pending, that engine can be brought to the foreground, and the access
names its register. -/
theorem State.target_of_locate {s : State} {a j off : Nat} (rest : List HostOp)
    (hl : Config.locate s.cfg a = some (j, off)) (ha : off % 8 = 0) (hj : j < s.engines.length) :
    ∃ u, { s with queue := rest }.focus j = some u ∧ { s with queue := rest }.target a 8 = .reg u off := by
  obtain ⟨u, hu⟩ := State.focus_some (s := { s with queue := rest }) hj
  exact ⟨u, hu, State.target_some hl hu ha⟩

/-- A state that answers the host and else is what `focus` gave has accepted the transaction. -/
theorem State.accepts_of_focus {s u : State} {j : Nat} {rest : List HostOp}
    (hf : { s with queue := rest }.focus j = some u) (r : Reply) : s.Accepts j rest r { u with reply := r } := by
  obtain ⟨hengines, hfront, heng, hcfg, hpins, hmem, hqueue, -⟩ := State.focus_spec hf
  exact { engines := hengines, front := hfront, eng := heng, queue := hqueue, reply := rfl, mem := hmem, cfg := hcfg
          pins := hpins }

/-- Settles O7: the engine comes to the foreground, and the value read is the entry of its register map. -/
theorem hostReadReturnsRegister : Obligations.HostReadReturnsRegister := by
  intro s a j off rest hq hl ha hj
  obtain ⟨u, hfocus, htarget⟩ := State.target_of_locate rest hl ha hj
  refine ⟨{ u with reply := .data (u.eng.readReg off) }, ?_, ?_⟩
  · simp [step_cons hq, State.hostOp, State.hostRead, htarget]
  · rw [Engine.lookup_registerMap]
    exact State.accepts_of_focus hfocus _

/-- Settles O8: the write is a transaction with the engine, and the register map follows `readReg_writeReg`. -/
theorem hostWriteSetsOperandRegister : Obligations.HostWriteSetsOperandRegister := by
  intro s a j off v rest hq hl ha hcmd hj
  obtain ⟨u, hfocus, htarget⟩ := State.target_of_locate rest hl ha hj
  have htrans : { s with queue := rest }.Transaction { u with reply := .done, eng := u.eng.writeReg off v } j u.eng :=
    State.transaction_of_focus hfocus (.write off v) rfl rfl rfl rfl rfl rfl
  refine ⟨_, u.eng, ?_, htrans.before, htrans.engines, htrans.front, htrans.queue, rfl, htrans.mem, htrans.cfg,
    htrans.pins, fun o => ?_⟩
  · simp [step_cons hq, State.hostOp, State.hostWrite, htarget, hcmd]
  · simp only [Engine.lookup_registerMap]
    exact u.eng.readReg_writeReg off o v

end Sys2Proof.Machine

/-!
SUPPORT. One command (spec/10_state.md R28, R29): the settled statement O17.
-/

namespace Sys2Proof.Machine

/-- A completion is the success form of R28 with 1, 2 or 4 result words and zeros beyond them. -/
theorem State.complete_succeeds (s : State) (r : ResultWords) :
    ∃ k r0 r1 r2 r3, k ∈ [1, 2, 4] ∧ (k ≤ 1 → r1 = 0) ∧ (k ≤ 2 → r2 = 0 ∧ r3 = 0)
      ∧ s.Succeeds (s.complete r) k r0 r1 r2 r3 := by
  cases r with
  | one r0 => exact ⟨1, r0, 0, 0, 0, by simp, by simp, by simp, s.complete_one r0⟩
  | two r0 r1 => exact ⟨2, r0, r1, 0, 0, by simp, by simp, by simp, s.complete_two r0 r1⟩
  | four r0 r1 r2 r3 => exact ⟨4, r0, r1, r2, r3, by simp, by simp, by simp, s.complete_four r0 r1 r2 r3⟩

/-- The error codes are 1, 2 and 3 (R196). -/
theorem CmdError.code_mem (x : CmdError) : x.code.toNat ∈ [1, 2, 3] := by cases x <;> decide

/-- Settles O17: a command ends in a completion or in an error, and each is one form of R28. -/
theorem everyCommandEndsInOneUpdate : Obligations.EveryCommandEndsInOneUpdate := by
  intro i s
  rcases exec_cases i s with ⟨r, hr⟩ | ⟨x, hx⟩
  · exact ⟨_, hr, .inl (s.complete_succeeds r)⟩
  · exact ⟨_, hx, .inr ⟨_, x.code_mem, s.raise_fails x⟩⟩

end Sys2Proof.Machine

/-!
SUPPORT. What a host operation keeps (spec/10_state.md R24, R25, R28, R34): the sticky error bit, and the invariant of the
machine. The settled statements O16 and O52.
-/

namespace Sys2Proof.Machine

/-! ### The words of a completion -/

@[simp] theorem statusSerr_onSuccess (old : Word) (k : BitVec 3) :
    statusSerr (statusOnSuccess old k) = statusSerr old := by
  simp [statusOnSuccess]

@[simp] theorem statusNw_onSuccess (old : Word) (k : BitVec 3) : statusNw (statusOnSuccess old k) = k := by
  simp [statusOnSuccess]

@[simp] theorem statusSerr_onError (c : BitVec 4) : statusSerr (statusOnError c) = true := by simp [statusOnError]

@[simp] theorem statusNw_onError (c : BitVec 4) : statusNw (statusOnError c) = 0 := by simp [statusOnError]

/-- STATUS after a success with 1, 2 or 4 result words is legal, whatever it was before (R28). -/
theorem legalStatus_onSuccess (old : Word) {k : BitVec 3} (hk : k.toNat ∈ [1, 2, 4]) :
    LegalStatus (statusOnSuccess old k) := by
  have hk0 : k ≠ 0 := by rintro rfl; simp at hk
  constructor <;> simp_all [statusOnSuccess]

/-- STATUS after an error is legal. -/
theorem legalStatus_onError (x : CmdError) : LegalStatus (statusOnError x.code) := by
  have hcode : x.code ≠ 0 := by cases x <;> decide
  have hle : x.code.toNat ≤ 3 := by cases x <;> decide
  constructor <;> simp_all [statusOnError]

/-! ### What a host register write leaves alone: the registers that the host may only read (R24, R25, R27) -/

section
variable (e : Engine) (off : Nat) (v : Word)

@[simp] theorem Engine.writeReg_status : (e.writeReg off v).status = e.status := by
  unfold Engine.writeReg; split <;> rfl
@[simp] theorem Engine.writeReg_cap : (e.writeReg off v).cap = e.cap := by unfold Engine.writeReg; split <;> rfl
@[simp] theorem Engine.writeReg_d0 : (e.writeReg off v).d0 = e.d0 := by unfold Engine.writeReg; split <;> rfl
@[simp] theorem Engine.writeReg_d1 : (e.writeReg off v).d1 = e.d1 := by unfold Engine.writeReg; split <;> rfl
@[simp] theorem Engine.writeReg_d2 : (e.writeReg off v).d2 = e.d2 := by unfold Engine.writeReg; split <;> rfl
@[simp] theorem Engine.writeReg_d3 : (e.writeReg off v).d3 = e.d3 := by unfold Engine.writeReg; split <;> rfl

end

/-! ### What one register transaction keeps in its engine -/

/-- No register transaction changes the latch (R187). -/
theorem Engine.Transacted.cap_eq {e f : Engine} (h : e.Transacted f) : f.cap = e.cap := by
  cases h <;> simp

/-- No register transaction clears the sticky error bit (R24, R208). -/
theorem Engine.Transacted.serr_of_serr {e f : Engine} (h : e.Transacted f) (he : statusSerr e.status = true) :
    statusSerr f.status = true := by
  cases h with
  | read => exact he
  | write off v => simpa using he
  | success r => cases r <;> simpa using he
  | error x => simp

/-- A completion leaves a register file the engine can hold: the words beyond NW are 0 (R28). -/
theorem Engine.Legal.complete {e : Engine} (h : e.Legal) (r : ResultWords) : (e.complete r).Legal where
  status := by cases r <;> exact legalStatus_onSuccess _ (by decide)
  cap := by simpa using h.cap
  d0 := by cases r <;> simp
  d1 := by cases r <;> simp
  d2 := by cases r <;> simp
  d3 := by cases r <;> simp

/-- An error leaves a register file the engine can hold. -/
theorem Engine.Legal.fail {e : Engine} (h : e.Legal) (x : CmdError) : (e.fail x).Legal where
  status := legalStatus_onError x
  cap := h.cap
  d0 _ := rfl
  d1 _ := rfl
  d2 _ := rfl
  d3 _ := rfl

/-- A host register write leaves a register file the engine can hold: it touches operand registers alone. -/
theorem Engine.Legal.writeReg {e : Engine} (h : e.Legal) (off : Nat) (v : Word) : (e.writeReg off v).Legal where
  status := by simpa using h.status
  cap := by simpa using h.cap
  d0 := by simpa using h.d0
  d1 := by simpa using h.d1
  d2 := by simpa using h.d2
  d3 := by simpa using h.d3

/-- STATUS before the first command is legal. -/
theorem legalStatus_zero : LegalStatus 0 := by constructor <;> decide

/-- The register file after reset is one the engine can hold (R225, R226). -/
theorem Engine.legal_atReset (p : Straps) : (Engine.atReset (capOf p)).Legal where
  status := legalStatus_zero
  cap := ⟨p, rfl⟩
  d0 _ := rfl
  d1 _ := rfl
  d2 _ := rfl
  d3 _ := rfl

/-- Every register transaction leaves a register file the engine can hold. -/
theorem Engine.Transacted.legal {e f : Engine} (h : e.Transacted f) (he : e.Legal) : f.Legal := by
  cases h with
  | read => exact he
  | write off v => exact he.writeReg off v
  | success r => exact he.complete r
  | error x => exact he.fail x

/-! ### The sticky error bit -/

/-- An engine after a transaction with engine `j` is what it was, or is engine `j` and has undergone the transaction. -/
theorem State.Transaction.engine_cases {s t : State} {j k : Nat} {e f g : Engine} (h : s.Transaction t j g)
    (he : s.engines[k]? = some e) (hf : t.engines[k]? = some f) : f = e ∨ e.Transacted f := by
  rw [h.engines, List.getElem?_set] at hf
  split at hf
  case isTrue hjk =>
    obtain rfl : g = e := by simpa [hjk, he] using h.before.symm
    split at hf
    · exact .inr (Option.some.inj hf ▸ h.after)
    · simp at hf
  case isFalse => exact .inl (by simpa [he] using hf.symm)

/-- An engine after an operation other than reset has undergone a register transaction, perhaps one that changes nothing. -/
theorem State.HostEffect.transacted {s t : State} {op : HostOp} {k : Nat} {e f : Engine} (h : s.HostEffect op t)
    (hop : op.isReset = false) (he : s.engines[k]? = some e) (hf : t.engines[k]? = some f) : e.Transacted f := by
  have unchanged : f = e → e.Transacted f := fun hfe => hfe ▸ .read
  cases h with
  | read _ htrans => exact (htrans.engine_cases he hf).elim unchanged id
  | write _ htrans => exact (htrans.engine_cases he hf).elim unchanged id
  | store => exact unchanged (Option.some.inj (hf.symm.trans he))
  | straps => exact unchanged (Option.some.inj (hf.symm.trans he))
  | reset hreset => simp [hreset] at hop

/-- Every engine after a reset is the reset register file (R225). -/
theorem State.HostEffect.atReset {s t : State} {op : HostOp} (h : s.HostEffect op t) (hop : op.isReset = true) :
    ∀ e ∈ t.engines, e = Engine.atReset (capOf s.pins) := by
  cases h with
  | reset _ r =>
    intro e he
    change e ∈ s.resetEvent.engines at he
    rw [State.resetEvent_engines] at he
    obtain ⟨_, _, rfl⟩ := List.mem_map.mp he
    rfl
  | _ => simp [HostOp.isReset] at hop

/-- Settles O16: no transaction clears SERR, and the reset register file has STATUS 0. -/
theorem stickyErrorClearedOnlyByReset : Obligations.StickyErrorClearedOnlyByReset := by
  intro s t op rest k e f hq hstep he hf
  have heffect := step_hostEffect hq hstep
  constructor
  · intro hop hserr
    exact (heffect.transacted hop he hf).serr_of_serr hserr
  · intro hop
    rw [heffect.atReset hop f (List.mem_of_getElem? hf)]
    show statusSerr 0 = false
    decide

/-! ### The invariant -/

/-- A register transaction keeps the invariant: the one engine that changes stays legal and keeps its latch. -/
theorem State.Inv.transaction {s t : State} {j : Nat} {e : Engine} (hs : s.Inv) (h : s.Transaction t j e) : t.Inv := by
  have hmem : e ∈ s.engines := List.mem_of_getElem? h.before
  have hcap : t.eng.cap = s.eng.cap := h.after.cap_eq.trans (hs.oneLatch e hmem)
  have hcases : ∀ f ∈ t.engines, f ∈ s.engines ∨ f = t.eng := fun f hf =>
    List.mem_or_eq_of_mem_set (h.engines ▸ hf)
  exact
    { memWf := h.mem ▸ hs.memWf
      memBound := by rw [h.mem, h.cfg]; exact hs.memBound
      count := by rw [h.engines, List.length_set, h.cfg]; exact hs.count
      legal := fun f hf => (hcases f hf).elim (hs.legal f) fun heq => heq ▸ h.after.legal (hs.legal e hmem)
      oneLatch := fun f hf => (hcases f hf).elim (fun hf => (hs.oneLatch f hf).trans hcap.symm) fun heq => heq ▸ rfl }

/-- A host store to a byte that exists keeps the invariant (R46). -/
theorem State.Inv.store {s : State} (hs : s.Inv) {addr : Nat} (b : Byte) (r : Reply) (h : addr < 2 ^ s.cfg.aw) :
    State.Inv { s with mem := writeByte s.mem addr b, reply := r } where
  memWf := writeByte_wf hs.memWf addr b
  memBound c hc := by
    rcases writeByte_addr hc with hc | rfl
    · exact hs.memBound c hc
    · exact h
  count := hs.count
  legal := hs.legal
  oneLatch := hs.oneLatch

/-- The reset event keeps the invariant: every engine takes the latch of the same straps (R214, R226). -/
theorem State.Inv.resetEvent {s : State} (hs : s.Inv) (r : Reply) : State.Inv { s.resetEvent with reply := r } := by
  have hall : ∀ e ∈ s.resetEvent.engines, e = Engine.atReset (capOf s.pins) :=
    (State.HostEffect.reset (op := .reset) rfl r).atReset rfl
  exact
    { memWf := hs.memWf
      memBound := hs.memBound
      count := by
        change s.resetEvent.engines.length = s.cfg.neng
        rw [State.resetEvent_engines, List.length_map, hs.count]
      legal := fun e he => hall e he ▸ Engine.legal_atReset s.pins
      oneLatch := fun e he => by rw [hall e he]; rfl }

/-- The queue, the straps and the reply are no part of the invariant. -/
theorem State.Inv.with_host {s : State} (hs : s.Inv) (q : List HostOp) (p : Straps) (r : Reply) :
    State.Inv { s with queue := q, pins := p, reply := r } :=
  ⟨hs.memWf, hs.memBound, hs.count, hs.legal, hs.oneLatch⟩

/-- Every host operation keeps the invariant. -/
theorem State.Inv.hostEffect {s t : State} {op : HostOp} (hs : s.Inv) (h : s.HostEffect op t) : t.Inv := by
  cases h with
  | read _ htrans => exact hs.transaction htrans
  | write _ htrans => exact hs.transaction htrans
  | store haddr => exact hs.store _ _ haddr
  | straps p => exact hs.with_host s.queue p .none
  | reset _ r => exact hs.resetEvent r

/-- Settles O52: an idle step changes nothing, and every host operation keeps the invariant. -/
theorem everyStepKeepsInvariant : Obligations.EveryStepKeepsInvariant := by
  intro s t hs hstep
  rcases step_next_cases hstep with ⟨-, rfl⟩ | ⟨op, rest, -, hop⟩
  · exact hs
  · exact (hs.with_host rest s.pins s.reply).hostEffect (State.hostOp_next hop)

end Sys2Proof.Machine

/-!
SUPPORT. Two buffers with the same content, wherever they lie, have the same digest: each fetch of the core, of the wide
combiners and of the CRC path stays inside the buffer (spec/20_memory.md R49, R53).
-/

namespace Sys2Proof.Machine

/-- The buffers have the same length and the same bytes, one by one; they may lie in different memories and places. -/
structure Buffer.SameContent (b b' : Buffer) : Prop where
  len : b'.len = b.len
  bytes : ∀ i, i < b.len → readByte b'.mem (b'.base + i) = readByte b.mem (b.base + i)

namespace Buffer.SameContent

variable {b b' : Buffer} (h : b.SameContent b') (c : Config)
include h

/-! ### Fetches and the length -/

theorem lenWord_eq : b'.lenWord = b.lenWord := by rw [Buffer.lenWord, Buffer.lenWord, h.len]

theorem lengthMul_eq : lengthMul c b' = lengthMul c b := by rw [lengthMul, lengthMul, h.lenWord_eq]

theorem byteAt_eq {o : Nat} (ho : o < b.len) : b'.byteAt o = b.byteAt o := Buffer.byteAt_congr (h.bytes o ho)

theorem f32_eq {o : Nat} (ho : o + 4 ≤ b.len) : b'.f32 o = b.f32 o := by
  apply Buffer.f32_congr
  intro i hi
  simpa only [Nat.add_assoc] using h.bytes (o + i) (by omega)

theorem f64_eq {o : Nat} (ho : o + 8 ≤ b.len) : b'.f64 o = b.f64 o := by
  apply Buffer.f64_congr
  intro i hi
  simpa only [Nat.add_assoc] using h.bytes (o + i) (by omega)

/-! ### The buckets of the core -/

theorem packB1_eq (hlen : 1 ≤ b.len) : packB1 b' = packB1 b := by
  simp only [packB1, h.len, h.lenWord_eq, h.byteAt_eq (show 0 < b.len by omega),
    h.byteAt_eq (show b.len / 2 < b.len by omega), h.byteAt_eq (show b.len - 1 < b.len by omega)]

theorem coreB0_eq (s0 s1 : Word) : coreB0 c b' s0 s1 = coreB0 c b s0 s1 := by
  simp only [coreB0, h.lengthMul_eq]

theorem coreB1_eq (hlen : 1 ≤ b.len) (s0 s1 : Word) : coreB1 c b' s0 s1 = coreB1 c b s0 s1 := by
  simp only [coreB1, h.lengthMul_eq, h.packB1_eq hlen]

theorem coreB2_eq (hlen : 4 ≤ b.len) (s0 s1 : Word) : coreB2 c b' s0 s1 = coreB2 c b s0 s1 := by
  simp only [coreB2, h.lengthMul_eq, h.lenWord_eq, h.len, h.f32_eq (show 0 + 4 ≤ b.len by omega),
    h.f32_eq (show b.len - 4 + 4 ≤ b.len by omega)]

theorem coreB3_eq (hlen : 8 ≤ b.len) (s0 s1 : Word) : coreB3 c b' s0 s1 = coreB3 c b s0 s1 := by
  simp only [coreB3, h.lengthMul_eq, h.lenWord_eq, h.len, h.f64_eq (show 0 + 8 ≤ b.len by omega),
    h.f64_eq (show b.len - 8 + 8 ≤ b.len by omega)]

theorem absorbStride_eq {o : Nat} (ho : o + 16 ≤ b.len) (uv : Word × Word) :
    absorbStride c b' uv o = absorbStride c b uv o := by
  simp only [absorbStride, h.f64_eq (show o + 8 ≤ b.len by omega), h.f64_eq (show o + 8 + 8 ≤ b.len by omega)]

theorem coreB4_eq (hlen : 16 ≤ b.len) (s0 s1 : Word) : coreB4 c b' s0 s1 = coreB4 c b s0 s1 := by
  simp only [coreB4, h.lengthMul_eq, h.lenWord_eq, h.len, h.absorbStride_eq c (show 0 + 16 ≤ b.len by omega),
    h.absorbStride_eq c (show b.len - 16 + 16 ≤ b.len by omega)]

theorem coreB5_eq (hlen : 32 ≤ b.len) (s0 s1 : Word) : coreB5 c b' s0 s1 = coreB5 c b s0 s1 := by
  simp only [coreB5, h.lengthMul_eq, h.lenWord_eq, h.len, h.absorbStride_eq c (show 0 + 16 ≤ b.len by omega),
    h.absorbStride_eq c (show 16 + 16 ≤ b.len by omega),
    h.absorbStride_eq c (show b.len - 32 + 16 ≤ b.len by omega),
    h.absorbStride_eq c (show b.len - 16 + 16 ≤ b.len by omega)]

/-- The tail window `[n - 64, n)` lies inside a buffer of at least 64 bytes. -/
theorem longInit_eq (hlen : 64 ≤ b.len) (s0 s1 : Word) : longInit c b' s0 s1 = longInit c b s0 s1 := by
  have tail : ∀ k, 8 ≤ k → k ≤ 64 → b'.f64 (b.len - k) = b.f64 (b.len - k) := fun k _ _ => h.f64_eq (by omega)
  simp only [longInit, h.lenWord_eq, h.len, h.f64_eq (show 0 + 8 ≤ b.len by omega), tail 64 (by omega) (by omega),
    tail 56 (by omega) (by omega), tail 48 (by omega) (by omega), tail 40 (by omega) (by omega),
    tail 32 (by omega) (by omega), tail 24 (by omega) (by omega), tail 16 (by omega) (by omega),
    tail 8 (by omega) (by omega)]

theorem longStride_eq {pos : Nat} (hpos : pos + 64 ≤ b.len) (t : LongAcc) :
    longStride c b' t pos = longStride c b t pos := by
  have word : ∀ k, k ≤ 56 → b'.f64 (pos + k) = b.f64 (pos + k) := fun k _ => h.f64_eq (by omega)
  simp only [longStride, h.f64_eq (show pos + 8 ≤ b.len by omega), word 8 (by omega), word 16 (by omega),
    word 24 (by omega), word 32 (by omega), word 40 (by omega), word 48 (by omega), word 56 (by omega)]

theorem longStrides_eq (k : Nat) {pos : Nat} (hpos : pos + 64 * k ≤ b.len) (t : LongAcc) :
    longStrides c b' k pos t = longStrides c b k pos t := by
  induction k generalizing pos t with
  | zero => rfl
  | succ k ih =>
    rw [longStrides, longStrides, h.longStride_eq c (by omega), ih (by omega)]

theorem coreB6_eq (hlen : 64 ≤ b.len) (s0 s1 : Word) : coreB6 c b' s0 s1 = coreB6 c b s0 s1 := by
  rw [coreB6, coreB6, h.len, h.longInit_eq c hlen, h.longStrides_eq c _ (by omega)]

/-- The core reads the buffer's bytes alone, whatever the bucket (R125, R127). -/
theorem core64_eq (s0 s1 : Word) : core64 c b' s0 s1 = core64 c b s0 s1 := by
  simp only [core64, h.len]
  split
  · exact h.coreB0_eq c s0 s1
  split
  · exact h.coreB1_eq c (by omega) s0 s1
  split
  · exact h.coreB2_eq c (by omega) s0 s1
  split
  · exact h.coreB3_eq c (by omega) s0 s1
  split
  · exact h.coreB4_eq c (by omega) s0 s1
  split
  · exact h.coreB5_eq c (by omega) s0 s1
  · exact h.coreB6_eq c (by omega) s0 s1

/-! ### The wide combiners and the CRC path -/

theorem core128_eq (s0 s1 : Word) : core128 c b' s0 s1 = core128 c b s0 s1 := by
  simp only [core128, h.core64_eq]

theorem lanesAbsorb_eq {off : Nat} (hoff : off + 32 ≤ b.len) (t : Lanes) :
    lanesAbsorb c b' t off = lanesAbsorb c b t off := by
  have word : ∀ k, k ≤ 24 → b'.f64 (off + k) = b.f64 (off + k) := fun k _ => h.f64_eq (by omega)
  simp only [lanesAbsorb, h.f64_eq (show off + 8 ≤ b.len by omega), word 8 (by omega), word 16 (by omega),
    word 24 (by omega)]

/-- Every stride of H256 ends inside the buffer, the last one at its end (R165). -/
theorem lanesStrides_eq (hlen : 32 ≤ b.len) (left k : Nat) (t : Lanes) :
    lanesStrides c b' left k t = lanesStrides c b left k t := by
  induction left generalizing k t with
  | zero => rfl
  | succ left ih =>
    rw [lanesStrides, lanesStrides, h.len, h.lanesAbsorb_eq c (by omega), ih]

theorem lanesOf_eq : lanesOf c b' = lanesOf c b := by
  simp only [lanesOf, h.len]
  split
  case isTrue => simp only [lanesShort, h.core64_eq]
  case isFalse hlen =>
    simp only [lanesLong, lanesInit, h.len, h.lenWord_eq, h.lanesStrides_eq c (show 32 ≤ b.len by omega)]

theorem crcHalf_eq {o : Nat} (ho : o + 32 ≤ b.len) (t : CrcAcc) : crcHalf c b' t o = crcHalf c b t o := by
  have word : ∀ k, k ≤ 24 → b'.f64 (o + k) = b.f64 (o + k) := fun k _ => h.f64_eq (by omega)
  simp only [crcHalf, h.f64_eq (show o + 8 ≤ b.len by omega), word 8 (by omega), word 16 (by omega),
    word 24 (by omega)]

/-- Every stride of H128C ends inside the buffer, the last one at its end (R179). -/
theorem crcStrides_eq (hlen : 64 ≤ b.len) (left k : Nat) (t : CrcAcc) :
    crcStrides c b' left k t = crcStrides c b left k t := by
  induction left generalizing k t with
  | zero => rfl
  | succ left ih =>
    simp only [crcStrides, h.len, h.crcHalf_eq c (show min (64 * k) (b.len - 64) + 32 ≤ b.len by omega),
      h.crcHalf_eq c (show min (64 * k) (b.len - 64) + 32 + 32 ≤ b.len by omega), ih]

theorem crcDigest_eq : crcDigest c b' = crcDigest c b := by
  simp only [crcDigest, h.len]
  split
  case isTrue => exact h.core128_eq c _ _
  case isFalse hlen =>
    simp only [crcLong, crcInit, crcFinal, h.len, h.lenWord_eq, h.crcStrides_eq c (show 64 ≤ b.len by omega)]

end Buffer.SameContent

end Sys2Proof.Machine

/-!
SUPPORT. Noninterference of one command (spec/10_state.md R20, spec/20_memory.md R53, spec/30_encoding.md R74): two states that
agree on what the command reads end alike. The settled statement O53.
-/

namespace Sys2Proof.Machine

/-- What the command `i` reads is the same in both states: the parameters, the operand registers and the latch of its row of
R68, and for a command that reads the buffer the outcome of the buffer check and the content of the buffer. -/
structure State.SameReads (i : Instr) (s t : State) : Prop where
  cfg : t.cfg = s.cfg
  seed0 : 0x30 ∈ operandsRead i → t.eng.seed0 = s.eng.seed0
  seed1 : 0x38 ∈ operandsRead i → t.eng.seed1 = s.eng.seed1
  x0 : 0x40 ∈ operandsRead i → t.eng.x0 = s.eng.x0
  x1 : 0x48 ∈ operandsRead i → t.eng.x1 = s.eng.x1
  x2 : 0x50 ∈ operandsRead i → t.eng.x2 = s.eng.x2
  cap : i ∈ readsLatch → t.eng.cap = s.eng.cap
  check : i ∈ readsBuffer → t.bufferCheckFails = s.bufferCheckFails
  content : i ∈ readsBuffer → s.buffer.SameContent t.buffer

/-- The commands of two states end alike: with the same result words, or with the same error. -/
inductive State.EndAlike (s t : State) : Host.Outcome State Fault Refusal → Host.Outcome State Fault Refusal → Prop
  | complete (r : ResultWords) : s.EndAlike t (.next (s.complete r)) (.next (t.complete r))
  | raise (x : CmdError) : s.EndAlike t (.next (s.raise x)) (.next (t.raise x))

namespace State.EndAlike

variable {s t : State}

/-- The two commands complete with equal result words. -/
theorem complete_of_eq {r r' : ResultWords} (h : r' = r) :
    s.EndAlike t (.next (s.complete r)) (.next (t.complete r')) := by
  subst h
  exact .complete _

/-- The two commands make the same check first, which raises the same error. -/
theorem raise_if {p q : Prop} [Decidable p] [Decidable q] {x : CmdError} {a b : Host.Outcome State Fault Refusal}
    (hpq : q ↔ p) (h : ¬p → s.EndAlike t a b) :
    s.EndAlike t (if p then .next (s.raise x) else a) (if q then .next (t.raise x) else b) := by
  by_cases hp : p
  · rw [if_pos hp, if_pos (hpq.mpr hp)]
    exact .raise x
  · rw [if_neg hp, if_neg (hp ∘ hpq.mp)]
    exact h hp

/-- Commands that end alike leave the same result words and, with the same sticky bit before, the same STATUS. -/
theorem sameResult {o p : Host.Outcome State Fault Refusal} (h : s.EndAlike t o p)
    (hserr : statusSerr t.eng.status = statusSerr s.eng.status) :
    ∃ s' t', o = .next s' ∧ p = .next t' ∧ s'.SameResult t' := by
  cases h with
  | complete r =>
    refine ⟨_, _, rfl, rfl, ?_⟩
    cases r <;> constructor <;> simp [statusOnSuccess, hserr]
  | raise x => exact ⟨_, _, rfl, rfl, rfl, rfl, rfl, rfl, rfl⟩

end State.EndAlike

namespace State.SameReads

variable {i : Instr} {s t : State} (h : State.SameReads i s t)
include h

theorem offsetCheck_eq (hi : i ∈ readsBuffer) {o o' : Word} (ho : o' = o) (k : Nat) :
    t.offsetCheckFails o' k = s.offsetCheckFails o k := by
  have hlen : t.eng.len.toNat = s.eng.len.toNat := (h.content hi).len
  rw [ho, State.offsetCheckFails, State.offsetCheckFails, hlen]

theorem crcUnavailable_eq (hi : i ∈ readsLatch) : t.crcUnavailable = s.crcUnavailable := by
  rw [State.crcUnavailable, State.crcUnavailable, h.cap hi]

/-- A command that checks the buffer and then computes its result words from its content (R197). -/
theorem endAlike_bufferCommand (hi : i ∈ readsBuffer) {r r' : ResultWords}
    (hr : s.buffer.SameContent t.buffer → r' = r) :
    s.EndAlike t (if s.bufferCheckFails then .next (s.raise .invalidArgument) else .next (s.complete r))
      (if t.bufferCheckFails then .next (t.raise .invalidArgument) else .next (t.complete r')) :=
  .raise_if (by rw [h.check hi]) fun _ => .complete_of_eq (hr (h.content hi))

/-- A command that checks the buffer, then `k` bytes at an offset, and then computes its result words from them (R198). -/
theorem endAlike_offsetCommand (hi : i ∈ readsBuffer) {o o' : Word} (ho : o' = o) {k : Nat} {r r' : ResultWords}
    (hr : s.buffer.SameContent t.buffer → o.toNat + k ≤ s.buffer.len → r' = r) :
    s.EndAlike t
      (if s.bufferCheckFails || s.offsetCheckFails o k then .next (s.raise .invalidArgument) else .next (s.complete r))
      (if t.bufferCheckFails || t.offsetCheckFails o' k then .next (t.raise .invalidArgument)
        else .next (t.complete r')) := by
  refine .raise_if (by rw [h.check hi, h.offsetCheck_eq hi ho]) fun hchecks => .complete_of_eq (hr (h.content hi) ?_)
  simp only [State.offsetCheckFails, Bool.or_eq_true, decide_eq_true_eq, not_or, not_lt] at hchecks
  exact hchecks.2

end State.SameReads

/-- A command depends on nothing but what it reads (R74): one case per row of R68. -/
theorem exec_endAlike {i : Instr} {s t : State} (h : State.SameReads i s t) : s.EndAlike t (exec i s) (exec i t) := by
  have hcfg := h.cfg
  cases i with
  | h32 => exact h.endAlike_bufferCommand (by decide) fun hb => by rw [hcfg, hb.core64_eq]
  | h64 => exact h.endAlike_bufferCommand (by decide) fun hb => by rw [hcfg, hb.core64_eq]
  | h64s => exact h.endAlike_bufferCommand (by decide) fun hb => by rw [hcfg, h.seed0 (by decide), hb.core64_eq]
  | h64ss =>
    exact h.endAlike_bufferCommand (by decide) fun hb => by
      rw [hcfg, h.seed0 (by decide), h.seed1 (by decide), hb.core64_eq]
  | h128 => exact h.endAlike_bufferCommand (by decide) fun hb => by rw [hcfg, hb.core128_eq]
  | h128s =>
    exact h.endAlike_bufferCommand (by decide) fun hb => by
      rw [hcfg, h.seed0 (by decide), h.seed1 (by decide), hb.core128_eq]
  | h256 => exact h.endAlike_bufferCommand (by decide) fun hb => by rw [hcfg, hb.lanesOf_eq]
  | h128c =>
    refine .raise_if (by rw [h.crcUnavailable_eq (by decide)]) fun _ => ?_
    exact h.endAlike_bufferCommand (by decide) fun hb => by rw [hcfg, hb.crcDigest_eq]
  | capq => exact .complete_of_eq (by rw [h.cap (by decide)])
  | rot64i sh => exact .complete_of_eq (by rw [h.x0 (by simp [operandsRead])])
  | rot64r => exact .complete_of_eq (by rw [h.x0 (by decide), h.x1 (by decide)])
  | rot32i sh => exact .raise_if .rfl fun _ => .complete_of_eq (by rw [h.x0 (by simp [operandsRead])])
  | rot32r => exact .complete_of_eq (by rw [h.x0 (by decide), h.x1 (by decide)])
  | shmix => exact .complete_of_eq (by rw [h.x0 (by decide)])
  | fold => exact .complete_of_eq (by rw [hcfg, h.x0 (by decide), h.x1 (by decide)])
  | foldm => exact .complete_of_eq (by rw [h.x0 (by decide), h.x1 (by decide), h.x2 (by decide)])
  | wmix =>
    have hx2 := h.x2 (by decide)
    refine h.endAlike_offsetCommand (by decide) hx2 fun hb ho => ?_
    rw [hx2, h.x0 (by decide), h.x1 (by decide), hb.f64_eq (by omega), hb.f64_eq (by omega), hb.f64_eq (by omega),
      hb.f64_eq (by omega)]
  | fetch32 =>
    have hx0 := h.x0 (by decide)
    exact h.endAlike_offsetCommand (by decide) hx0 fun hb ho => by rw [hx0, hb.f32_eq ho]
  | fetch64 =>
    have hx0 := h.x0 (by decide)
    exact h.endAlike_offsetCommand (by decide) hx0 fun hb ho => by rw [hx0, hb.f64_eq ho]
  | mur32 => exact .complete_of_eq (by rw [hcfg, h.x0 (by decide), h.x1 (by decide)])
  | fmix32 => exact .complete_of_eq (by rw [hcfg, h.x0 (by decide)])
  | crc64 =>
    refine .raise_if (by rw [h.crcUnavailable_eq (by decide)]) fun _ => ?_
    exact .complete_of_eq (by rw [hcfg, h.x0 (by decide), h.x1 (by decide)])

/-- States with the same inputs agree on what every command reads. -/
theorem State.SameInputs.sameReads {s t : State} (h : s.SameInputs t) (i : Instr) : State.SameReads i s t where
  cfg := h.cfg
  seed0 _ := h.operands.seed0
  seed1 _ := h.operands.seed1
  x0 _ := h.operands.x0
  x1 _ := h.operands.x1
  x2 _ := h.operands.x2
  cap _ := h.operands.cap
  check _ := by rw [State.bufferCheckFails, State.bufferCheckFails, h.operands.ptr, h.operands.len, h.cfg]
  content _ :=
    { len := by simp only [State.buffer, h.operands.len]
      bytes := by simpa only [State.buffer, h.operands.ptr] using h.bytes }

/-- Settles O53: two states with the same inputs agree on what the command reads, so it ends alike in both. -/
theorem commandDependsOnlyOnItsInputs : Obligations.CommandDependsOnlyOnItsInputs :=
  fun i _ _ h => (exec_endAlike (h.sameReads i)).sameResult h.serr

end Sys2Proof.Machine

/-!
SUPPORT. Which register a host address names (spec/20_memory.md R56), and the accesses that name none (R58): the settled
statements O9 and O10.
-/

namespace Sys2Proof.Machine

/-- With bases of blocks that do not overlap, an address is located at offset `off` of block `j` exactly when it is that
offset of that block (R56). -/
theorem locateBlock_eq_some_iff {n : Nat} {bs : List Nat} (hbs : bs.Pairwise fun b d => b + n ≤ d ∨ d + n ≤ b)
    (a j off : Nat) :
    locateBlock n bs a = some (j, off) ↔ ∃ base, bs[j]? = some base ∧ a = base + off ∧ off < n := by
  induction bs generalizing j with
  | nil => simp [locateBlock]
  | cons b bs ih =>
    obtain ⟨hhead, htail⟩ := List.pairwise_cons.mp hbs
    rw [locateBlock]
    split
    case isTrue hin =>
      cases j with
      | zero =>
        simp only [Option.some.injEq, Prod.mk.injEq, true_and, List.getElem?_cons_zero, exists_eq_left']
        omega
      | succ j =>
        suffices ¬∃ base, bs[j]? = some base ∧ a = base + off ∧ off < n by simpa
        rintro ⟨base, hj, rfl, hoff⟩
        have hdisjoint := hhead base (List.mem_of_getElem? hj)
        omega
    case isFalse hout =>
      cases j with
      | zero =>
        suffices ¬(a = b + off ∧ off < n) by simpa
        omega
      | succ j => simpa using ih htail j

/-- The check on the parameters contains that no two register blocks overlap (R56). -/
theorem Config.pairwise_of_wellFormed {c : Config} (h : c.wellFormed = true) :
    c.regbase.Pairwise fun b d => b + c.blockBytes ≤ d ∨ d + c.blockBytes ≤ b := by
  simp only [Config.wellFormed, Config.blocksDisjoint, Bool.and_eq_true, decide_eq_true_eq] at h
  obtain ⟨⟨-, hdisjoint⟩, -⟩ := h
  exact hdisjoint

/-- Settles O10: `locateBlock_eq_some_iff` for the platform's blocks. -/
theorem hostAddressNamesOneRegister : Obligations.HostAddressNamesOneRegister :=
  fun _ a j off h => locateBlock_eq_some_iff (Config.pairwise_of_wellFormed h) a j off

/-- A narrower, wider or misaligned access to a register block is refused (R58). -/
theorem State.target_notWholeRegister {s : State} {addr size j off : Nat}
    (hl : Config.locate s.cfg addr = some (j, off)) (h : size ≠ 8 ∨ off % 8 ≠ 0) :
    s.target addr size = .refuse (.notWholeRegister addr size) := by
  have hodd : ¬(size = 8 ∧ off % 8 = 0) := by tauto
  simp [State.target, hl, hodd]

/-- An access to no register block is refused (R56; log 8). -/
theorem State.target_noRegisterBlock {s : State} {addr : Nat} (size : Nat) (hl : Config.locate s.cfg addr = none) :
    s.target addr size = .refuse (.noRegisterBlock addr) := by
  simp [State.target, hl]

/-- A register transaction whose access is refused is refused, a read and a write alike. -/
theorem State.hostOp_refused {s : State} {op : HostOp} {addr size : Nat} {v : Word} {r : Refusal}
    (hop : op = .rd addr size ∨ op = .wr addr size v) (h : s.target addr size = .refuse r) :
    s.hostOp op = .refused r := by
  rcases hop with rfl | rfl
  · simp [State.hostOp, State.hostRead, h]
  · simp [State.hostOp, State.hostWrite, h]

/-- Settles O9: the step is the access, and the access names no register. -/
theorem oddHostAccessesAreRefused : Obligations.OddHostAccessesAreRefused := by
  intro s a size v rest op hop hq
  rw [step_cons hq]
  exact ⟨fun _ _ hl hodd => State.hostOp_refused hop (State.target_notWholeRegister hl hodd),
    fun hl => State.hostOp_refused hop (State.target_noRegisterBlock size hl)⟩

end Sys2Proof.Machine

/-!
SUPPORT. Buffer memory as the host stores to it and as a command fetches from it (spec/20_memory.md R45 to R49): the settled
statements O11, O12 and O55.
-/

namespace Sys2Proof.Machine

/-- Settles O11: the step is one `writeByte`, which keeps the canonical form and reads back its byte at its address alone. -/
theorem hostStoreWritesOneByte : Obligations.HostStoreWritesOneByte := by
  intro s a b rest hq hwf
  rw [step_cons hq]
  refine ⟨fun ha => ⟨{ s with queue := rest, mem := writeByte s.mem a b, reply := .none }, ?_, writeByte_wf hwf a b, rfl,
    rfl, rfl, rfl, readByte_writeByte hwf a b⟩, fun ha => ?_⟩
  · simp [State.hostOp, State.hostStore, ha]
  · simp [State.hostOp, State.hostStore, Nat.not_lt.mpr ha]

/-- Byte `k` of a little-endian read is the memory byte at the address plus `k` (R47, R48). -/
theorem memRead_byte (m : Memory) (a : Nat) {k n : Nat} (hk : k < n) :
    memRead m a n / 256 ^ k % 256 = (readByte m (a + k)).toNat := by
  obtain ⟨j, rfl⟩ := Nat.exists_eq_add_of_lt hk
  have hbyte := (readByte m (a + k)).isLt
  rw [Nat.add_assoc, memRead_add, Nat.add_mul_div_left _ _ (by positivity), Nat.div_eq_of_lt (memRead_lt m a k),
    memRead]
  omega

section
variable (b : Buffer) (o : Nat)

/-- `B[o]` as an integer (R15). -/
theorem Buffer.byteAt_toNat : (b.byteAt o).toNat = (readByte b.mem (b.base + o)).toNat := by
  have hbyte := (readByte b.mem (b.base + o)).isLt
  simp only [Buffer.byteAt, memRead, BitVec.toNat_ofNat]
  omega

/-- `F32(o)` as an integer (R15, R47). -/
theorem Buffer.f32_toNat : (b.f32 o).toNat = memRead b.mem (b.base + o) 4 := by
  have hlt := memRead_lt b.mem (b.base + o) 4
  simp only [Buffer.f32, BitVec.toNat_setWidth, BitVec.toNat_ofNat]
  omega

/-- `F64(o)` as an integer (R15, R47). -/
theorem Buffer.f64_toNat : (b.f64 o).toNat = memRead b.mem (b.base + o) 8 := by
  have hlt := memRead_lt b.mem (b.base + o) 8
  simp only [Buffer.f64, BitVec.toNat_ofNat]
  omega

/-- `F64(o)` is `F32(o)` with `F32(o + 4)` above it. -/
theorem Buffer.f64_toNat_eq_f32 : (b.f64 o).toNat = (b.f32 o).toNat + 2 ^ 32 * (b.f32 (o + 4)).toNat := by
  rw [b.f64_toNat, b.f32_toNat, b.f32_toNat, ← Nat.add_assoc]
  exact memRead_add b.mem (b.base + o) 4 4

/-- `F32(o)` is below 2^32. -/
theorem Buffer.f32_lt : (b.f32 o).toNat < 2 ^ 32 := by
  rw [b.f32_toNat]
  exact memRead_lt b.mem (b.base + o) 4

end

/-- A word whose value is a little-endian read of `n` bytes has these bytes, the lowest address least significant. -/
theorem extractLsb'_of_toNat_eq_memRead {w : Word} {m : Memory} {a n : Nat} (hw : w.toNat = memRead m a n) {k : Nat}
    (hk : k < n) : w.extractLsb' (8 * k) 8 = readByte m (a + k) := by
  apply BitVec.eq_of_toNat_eq
  rw [BitVec.extractLsb'_toNat, Nat.shiftRight_eq_div_pow, hw, Nat.pow_mul]
  exact memRead_byte m a hk

/-- Settles O12: the bytes of a fetch by `memRead_byte`, the halves of F64 by `f64_toNat_eq_f32`. -/
theorem fetchesAreLittleEndian : Obligations.FetchesAreLittleEndian := by
  intro b o
  have hhalves := b.f64_toNat_eq_f32 o
  have hlow := b.f32_lt o
  have hhigh := b.f32_lt (o + 4)
  refine ⟨fun k hk => extractLsb'_of_toNat_eq_memRead (b.f64_toNat o) hk,
    fun k hk => extractLsb'_of_toNat_eq_memRead (b.f32_toNat o) hk, ?lowHalf, ?highHalf, ?zero, ?byte⟩
  case byte =>
    apply BitVec.eq_of_toNat_eq
    have hbyte := (readByte b.mem (b.base + o)).isLt
    rw [b.byteAt_toNat, BitVec.toNat_setWidth]
    omega
  all_goals
    apply BitVec.eq_of_toNat_eq
    simp only [BitVec.extractLsb'_toNat, Nat.shiftRight_eq_div_pow, BitVec.ofNat_eq_ofNat, BitVec.toNat_ofNat]
    omega

/-- A buffer that fits passes the buffer check (R197). -/
theorem State.bufferCheckFails_of_fits {s : State} (h : s.bufferFits) : s.bufferCheckFails = false :=
  decide_eq_false (Nat.not_lt.mpr h)

/-- States whose buffers fit and hold the same bytes agree on what every command reads, wherever the buffers lie. -/
theorem State.SameBytes.sameReads {s t : State} (h : s.SameBytes t) (i : Instr) : State.SameReads i s t where
  cfg := h.cfg
  seed0 _ := h.seed0
  seed1 _ := h.seed1
  x0 _ := h.x0
  x1 _ := h.x1
  x2 _ := h.x2
  cap _ := h.cap
  check _ := by rw [State.bufferCheckFails_of_fits h.fits, State.bufferCheckFails_of_fits h.fits']
  content _ := { len := congrArg BitVec.toNat h.len, bytes := h.bytes }

/-- Settles O55: with the same bytes in both buffers the command reads the same, so it ends alike in both states. -/
theorem bufferPlaceIsIrrelevant : Obligations.BufferPlaceIsIrrelevant :=
  fun i _ _ h => (exec_endAlike (h.sameReads i)).sameResult h.serr

end Sys2Proof.Machine

/-!
SUPPORT. The command word (spec/30_encoding.md R66 to R71): a written value decodes to a command exactly when it is the value a
host writes for that command. The settled statements O1, O2 and O4.
-/

namespace Sys2Proof

/-! ### A written value and its four fields (R66) -/

/-- The four fields of R66 cover the written value. -/
theorem word_eq_iff_fields {v w : Word} : v = w ↔ opcField v = opcField w ∧ shField v = shField w
    ∧ zeroField v = zeroField w ∧ highField v = highField w := by
  constructor
  · rintro rfl
    exact ⟨rfl, rfl, rfl, rfl⟩
  · rintro ⟨hopc, hsh, hzero, hhigh⟩
    simp only [opcField, shField, zeroField, highField, ← BitVec.toNat_inj, BitVec.extractLsb'_toNat,
      Nat.shiftRight_eq_div_pow] at hopc hsh hzero hhigh
    apply BitVec.eq_of_toNat_eq
    omega

/-- The fields of the value a host writes for a command (R66, R72). -/
theorem hostValue_fields (i : Instr) : Laws.OpcodeByte.Statement i := by
  cases i with
  | h32 => exact Laws.OpcodeByte.h32
  | h64 => exact Laws.OpcodeByte.h64
  | h64s => exact Laws.OpcodeByte.h64s
  | h64ss => exact Laws.OpcodeByte.h64ss
  | h128 => exact Laws.OpcodeByte.h128
  | h128s => exact Laws.OpcodeByte.h128s
  | h256 => exact Laws.OpcodeByte.h256
  | h128c => exact Laws.OpcodeByte.h128c
  | capq => exact Laws.OpcodeByte.capq
  | rot64i sh => exact Laws.OpcodeByte.rot64i sh
  | rot64r => exact Laws.OpcodeByte.rot64r
  | rot32i sh => exact Laws.OpcodeByte.rot32i sh
  | rot32r => exact Laws.OpcodeByte.rot32r
  | shmix => exact Laws.OpcodeByte.shmix
  | fold => exact Laws.OpcodeByte.fold
  | foldm => exact Laws.OpcodeByte.foldm
  | wmix => exact Laws.OpcodeByte.wmix
  | fetch32 => exact Laws.OpcodeByte.fetch32
  | fetch64 => exact Laws.OpcodeByte.fetch64
  | mur32 => exact Laws.OpcodeByte.mur32
  | fmix32 => exact Laws.OpcodeByte.fmix32
  | crc64 => exact Laws.OpcodeByte.crc64

/-- A value is the one a host writes for a command exactly when it has the command's opcode and immediate and zeros above. -/
theorem eq_hostValue_iff {w : Word} {i : Instr} : w = hostValue i ↔
    opcField w = opcode i ∧ shField w = immediate i ∧ zeroField w = 0 ∧ highField w = 0 := by
  obtain ⟨hopc, hsh, hzero, hhigh⟩ := hostValue_fields i
  rw [word_eq_iff_fields, hopc, hsh, hzero, hhigh]

/-! ### The decoder -/

/-- A word of a command without an immediate is that command, with SH 0, or no command (R66). -/
theorem decodePlain_eq_command {i j : Instr} {w : Word} : decodePlain i w = .command j ↔ shField w = 0 ∧ i = j := by
  unfold decodePlain
  split <;> simp_all

/-- A word of ROT32I is that command with an amount up to 31, or no command (R67). -/
theorem decodeRot32i_eq_command {j : Instr} {w : Word} :
    decodeRot32i w = .command j ↔ (shField w).toNat ≤ 31 ∧ .rot32i (shField w) = j := by
  unfold decodeRot32i
  split <;> simp_all

/-- The opcode map: the opcode and the immediate of a well-formed command give the command (R68). -/
theorem decodeOpc_of_fields {i : Instr} {w : Word} (hopc : opcField w = opcode i) (hsh : shField w = immediate i)
    (hwf : i.wellFormed = true) : decodeOpc w = .command i := by
  unfold decodeOpc
  rw [hopc]
  cases i with
  | rot64i sh => exact congrArg (Decoded.command ∘ Instr.rot64i) hsh
  | rot32i sh =>
    obtain rfl : shField w = sh := hsh
    exact decodeRot32i_eq_command.mpr ⟨by simpa [Instr.wellFormed] using hwf, rfl⟩
  | _ => exact decodePlain_eq_command.mpr ⟨hsh, rfl⟩

/-- What the opcode map accepts has the opcode and the immediate of the command, which is well formed (R68). -/
theorem fields_of_decodeOpc {i : Instr} {w : Word} (h : decodeOpc w = .command i) :
    opcField w = opcode i ∧ shField w = immediate i ∧ i.wellFormed = true := by
  unfold decodeOpc at h
  split at h
  case h_10 hopc =>
    obtain rfl : .rot64i (shField w) = i := by simpa using h
    exact ⟨BitVec.eq_of_toNat_eq hopc, rfl, rfl⟩
  case h_12 hopc =>
    obtain ⟨hsh, rfl⟩ := decodeRot32i_eq_command.mp h
    exact ⟨BitVec.eq_of_toNat_eq hopc, rfl, by simpa [Instr.wellFormed] using hsh⟩
  case h_23 => simp at h
  all_goals
    rename_i hopc
    obtain ⟨hsh, rfl⟩ := decodePlain_eq_command.mp h
    exact ⟨BitVec.eq_of_toNat_eq hopc, hsh, rfl⟩

/-- R69: the legal command words are the values a host writes for the well-formed commands, each decoding to its command. -/
theorem decode_eq_command_iff {w : Word} {i : Instr} :
    decode w = .command i ↔ i.wellFormed = true ∧ w = hostValue i := by
  rw [eq_hostValue_iff]
  unfold decode
  constructor
  · intro h
    split at h
    · simp at h
    · split at h
      · simp at h
      · obtain ⟨hopc, hsh, hwf⟩ := fields_of_decodeOpc h
        exact ⟨hwf, hopc, hsh, by simp_all, by simp_all⟩
  · rintro ⟨hwf, hopc, hsh, hzero, hhigh⟩
    simp [hzero, hhigh, decodeOpc_of_fields hopc hsh hwf]

/-- Settles O1, by `decode_eq_command_iff`. -/
theorem decodeEncodeRoundTrip : Obligations.DecodeEncodeRoundTrip :=
  fun _ hwf => decode_eq_command_iff.mpr ⟨hwf, rfl⟩

/-- Settles O4: each value is the host's value of its command. -/
theorem vectorWordsDecode : Obligations.VectorWordsDecode := by
  refine ⟨?_, ?_, ?_, ?_, ?_, ?_⟩ <;> exact decode_eq_command_iff.mpr (by decide)

/-! ### The masks of R69 -/

/-- Under a mask of 1 in the opcode and in bits 63:14 and of `mask` in SH, a value is an opcode alone exactly when it has that
opcode, no bit of SH under the mask, and zeros above. -/
theorem and_mask_eq_iff {w m c : Word} (hopc : opcField m = BitVec.allOnes 8) (hzero : zeroField m = BitVec.allOnes 18)
    (hhigh : highField m = BitVec.allOnes 32) (hsh : shField c = 0) (hczero : zeroField c = 0) (hchigh : highField c = 0) :
    w &&& m = c ↔ opcField w = opcField c ∧ shField w &&& shField m = 0 ∧ zeroField w = 0 ∧ highField w = 0 := by
  rw [word_eq_iff_fields, hsh, hczero, hchigh]
  have hfields : opcField (w &&& m) = opcField w ∧ shField (w &&& m) = shField w &&& shField m
      ∧ zeroField (w &&& m) = zeroField w ∧ highField (w &&& m) = highField w := by
    unfold opcField shField zeroField highField at *
    simp only [BitVec.extractLsb'_and, hopc, hzero, hhigh, BitVec.and_allOnes, and_self]
  obtain ⟨h1, h2, h3, h4⟩ := hfields
  rw [h1, h2, h3, h4]

/-- R69 (b): the value of a ROT64I command, by its mask. -/
theorem eq_hostValue_rot64i_iff {w : Word} {sh : BitVec 6} :
    w = hostValue (.rot64i sh) ↔ w &&& 0xFFFFFFFFFFFFC0FF = 0x20 ∧ sh = shField w := by
  rw [eq_hostValue_iff, and_mask_eq_iff (by decide) (by decide) (by decide) (by decide) (by decide) (by decide)]
  have hmask : shField 0xFFFFFFFFFFFFC0FF = 0 := by decide
  have hopc : opcField 0x20 = 0x20 := by decide
  rw [hmask, hopc]
  constructor
  · rintro ⟨hop, rfl, hzero, hhigh⟩
    exact ⟨⟨hop, BitVec.and_zero, hzero, hhigh⟩, rfl⟩
  · rintro ⟨⟨hop, -, hzero, hhigh⟩, rfl⟩
    exact ⟨hop, rfl, hzero, hhigh⟩

/-- Bit 5 of SH is 0 exactly when the amount is at most 31 (R69 c). -/
theorem and_bit5_eq_zero_iff (sh : BitVec 6) : sh &&& 0x20 = 0 ↔ sh.toNat ≤ 31 := by decide +revert

/-- An amount of at most 31 is its five low bits. -/
theorem setWidth_low5_of_le {sh : BitVec 6} (h : sh.toNat ≤ 31) : (sh.setWidth 5).setWidth 6 = sh := by
  apply BitVec.eq_of_toNat_eq
  simp only [BitVec.toNat_setWidth]
  omega

/-- The amount of ROT32I, bits 12:8, is the five low bits of SH. -/
theorem extract_amount32 (w : Word) : w.extractLsb' 8 5 = (shField w).setWidth 5 := by
  apply BitVec.eq_of_toNat_eq
  simp only [shField, BitVec.toNat_setWidth, BitVec.extractLsb'_toNat]
  omega

/-- R69 (c): the value of a well-formed ROT32I command, by its mask. -/
theorem eq_hostValue_rot32i_iff {w : Word} {sh : BitVec 6} :
    sh.toNat ≤ 31 ∧ w = hostValue (.rot32i sh) ↔
      w &&& 0xFFFFFFFFFFFFE0FF = 0x22 ∧ sh = (w.extractLsb' 8 5).setWidth 6 := by
  rw [eq_hostValue_iff, and_mask_eq_iff (by decide) (by decide) (by decide) (by decide) (by decide) (by decide)]
  have hmask : shField 0xFFFFFFFFFFFFE0FF = 0x20 := by decide
  have hopc : opcField 0x22 = 0x22 := by decide
  rw [hmask, hopc, and_bit5_eq_zero_iff, extract_amount32]
  constructor
  · rintro ⟨hle, hop, rfl, hzero, hhigh⟩
    exact ⟨⟨hop, hle, hzero, hhigh⟩, (setWidth_low5_of_le hle).symm⟩
  · rintro ⟨⟨hop, hle, hzero, hhigh⟩, rfl⟩
    rw [setWidth_low5_of_le hle]
    exact ⟨hle, hop, rfl, hzero, hhigh⟩

/-- R69 (a): the listed words are the values of the commands without an immediate. -/
theorem eq_hostValue_of_mem_plainWords {p : Word × Instr} (h : p ∈ Machine.plainWords) :
    p.2.wellFormed = true ∧ p.1 = hostValue p.2 := by
  revert p
  decide

/-- Settles O2: each clause is `decode_eq_command_iff` with the host's value of the command written as R69 writes it. -/
theorem legalCommandWords : Obligations.LegalCommandWords := by
  intro w
  refine ⟨fun p hp => ?plain, fun sh => ?rot64i, fun sh => ?rot32i⟩
  case plain =>
    obtain ⟨hwf, hword⟩ := eq_hostValue_of_mem_plainWords hp
    rw [decode_eq_command_iff, hword, and_iff_right hwf]
  case rot64i => rw [decode_eq_command_iff, eq_hostValue_rot64i_iff, Instr.wellFormed, and_iff_right rfl, shField]
  case rot32i => rw [decode_eq_command_iff, ← eq_hostValue_rot32i_iff, Instr.wellFormed, decide_eq_true_eq]

end Sys2Proof

/-!
SUPPORT. A write to CMD (spec/30_encoding.md R64, R70; spec/60_exceptions.md R199): the step at it, and what an illegal value
ends with. The settled statements O3 and O5.
-/

namespace Sys2Proof.Machine

/-! ### The step at a register write -/

/-- A write to CMD issues its value on the engine addressed, and is answered (R26, R64). -/
theorem State.hostWrite_cmd {s t : State} {addr : Nat} (h : s.target addr 8 = .reg t 0) (v : Word) :
    s.hostWrite addr 8 v = { t with reply := .done }.issue v := by
  simp [State.hostWrite, h]

/-- A write to an offset other than CMD writes that register of the engine addressed, and is answered (R232). -/
theorem State.hostWrite_register {s t : State} {addr off : Nat} (h : s.target addr 8 = .reg t off) (hoff : off ≠ 0)
    (v : Word) : s.hostWrite addr 8 v = .next { t with reply := .done, eng := t.eng.writeReg off v } := by
  simp [State.hostWrite, h, hoff]

/-- The step at a whole write to CMD of an existing engine issues the value in the state that has accepted the write (R64). -/
theorem step_cmdWrite {s : State} {a j : Nat} {v : Word} {rest : List HostOp} (hq : s.queue = .wr a 8 v :: rest)
    (hl : Config.locate s.cfg a = some (j, 0)) (hj : j < s.engines.length) :
    ∃ t, s.Accepts j rest .done t ∧ step s = t.issue v := by
  obtain ⟨u, hfocus, htarget⟩ := State.target_of_locate rest hl rfl hj
  refine ⟨{ u with reply := .done }, State.accepts_of_focus hfocus .done, ?_⟩
  rw [step_cons hq]
  exact State.hostWrite_cmd htarget v

/-! ### What the value written does -/

/-- A value that decodes to a command runs it. -/
theorem State.issue_of_command {v : Word} {i : Instr} (h : decode v = .command i) (s : State) : s.issue v = exec i s := by
  simp [State.issue, h]

/-- A value that decodes to no command ends with IllegalCommand (R199). -/
theorem State.issue_of_illegal {v : Word} {e : DecodeError} (h : decode v = .illegal e) (s : State) :
    s.issue v = .next (s.raise .illegalCommand) := by
  simp [State.issue, h]

/-- Settles O5: the value decodes to the command, so issuing it runs the command. -/
theorem stepRunsDecodedCommand : Obligations.StepRunsDecodedCommand := by
  intro s a j v rest i hq hl hj hdecode
  obtain ⟨t, haccepts, hstep⟩ := step_cmdWrite hq hl hj
  exact ⟨t, haccepts, by rw [hstep, State.issue_of_command hdecode]⟩

/-! ### The illegal values of R70 -/

/-- Every command has an opcode of R68. -/
theorem opcode_mem_assignedOpcodes (i : Instr) : opcode i ∈ assignedOpcodes := by
  cases i <;> simp [opcode, assignedOpcodes]

/-- A command with an opcode other than those of ROT64I and ROT32I has no immediate (R66). -/
theorem immediate_eq_zero {i : Instr} (h64 : opcode i ≠ 0x20) (h32 : opcode i ≠ 0x22) : immediate i = 0 := by
  cases i with
  | rot64i sh => exact absurd rfl h64
  | rot32i sh => exact absurd rfl h32
  | _ => rfl

/-- The amount of a well-formed command with the opcode of ROT32I is at most 31 (R67). -/
theorem immediate_le_31 {i : Instr} (hwf : i.wellFormed = true) (h : opcode i = 0x22) : (immediate i).toNat ≤ 31 := by
  cases i with
  | rot32i sh => simpa [Instr.wellFormed, immediate] using hwf
  | rot64i sh => exact absurd h (by simp [opcode])
  | _ => exact Nat.zero_le 31

/-- A value whose bits 31:14 and 63:32 are 0 is below 2^14. -/
theorem shiftRight_14_eq_zero {v : Word} (hzero : zeroField v = 0) (hhigh : highField v = 0) : v >>> 14 = 0 := by
  simp only [zeroField, highField, ← BitVec.toNat_inj, BitVec.extractLsb'_toNat, Nat.shiftRight_eq_div_pow,
    BitVec.ofNat_eq_ofNat, BitVec.toNat_ofNat] at hzero hhigh
  apply BitVec.eq_of_toNat_eq
  simp only [BitVec.toNat_ushiftRight, Nat.shiftRight_eq_div_pow, BitVec.ofNat_eq_ofNat, BitVec.toNat_ofNat]
  omega

/-- The value of a well-formed command is not illegal: no clause of R70 takes it. -/
theorem not_illegalValue_hostValue {i : Instr} (hwf : i.wellFormed = true) : ¬ IllegalValue (hostValue i) := by
  obtain ⟨hopc, hsh, hzero, hhigh⟩ := hostValue_fields i
  rw [opcField] at hopc
  rw [shField] at hsh
  unfold IllegalValue
  rw [hopc, hsh]
  rintro (hbits | hunknown | ⟨himm, h64, h32⟩ | ⟨h32, hamount⟩)
  · exact hbits (shiftRight_14_eq_zero hzero hhigh)
  · exact hunknown (opcode_mem_assignedOpcodes i)
  · exact himm (immediate_eq_zero h64 h32)
  · exact absurd (immediate_le_31 hwf h32) (by omega)

/-- A value that R70 calls illegal decodes to no command. -/
theorem decode_of_illegalValue {v : Word} (h : IllegalValue v) : ∃ e, decode v = .illegal e := by
  cases hdecode : decode v with
  | illegal e => exact ⟨e, rfl⟩
  | command i =>
    obtain ⟨hwf, rfl⟩ := decode_eq_command_iff.mp hdecode
    exact absurd h (not_illegalValue_hostValue hwf)

/-- Settles O3: the value decodes to no command, so issuing it takes the error IllegalCommand, code 3. -/
theorem illegalValuesEndWithIllegalCommand : Obligations.IllegalValuesEndWithIllegalCommand := by
  intro s a j v rest hq hl hj hillegal
  obtain ⟨t, haccepts, hstep⟩ := step_cmdWrite hq hl hj
  obtain ⟨e, hdecode⟩ := decode_of_illegalValue hillegal
  exact ⟨t, t.raise .illegalCommand, haccepts, by rw [hstep, State.issue_of_illegal hdecode],
    t.raise_fails .illegalCommand⟩

end Sys2Proof.Machine

/-!
SUPPORT. What a command ignores (spec/30_encoding.md R68, R74): the settled statement O54.
-/

namespace Sys2Proof.Machine

/-- A command that reads the buffer lists PTR and LEN (R54, R68). -/
theorem ptr_len_mem_operandsRead {i : Instr} (h : i ∈ readsBuffer) : 0x20 ∈ operandsRead i ∧ 0x28 ∈ operandsRead i := by
  revert i
  decide

/-- Register files and memories that agree on what the row of a command lists give the command the same reads. -/
theorem State.sameReads_of_listed {i : Instr} {s : State} {e : Engine} {m : Memory}
    (hreg : ∀ o ∈ operandsRead i, e.readReg o = s.eng.readReg o) (hcap : i ∈ readsLatch → e.cap = s.eng.cap)
    (hmem : i ∈ readsBuffer → m = s.mem) : State.SameReads i s { s with eng := e, mem := m } := by
  have hptr : i ∈ readsBuffer → e.ptr = s.eng.ptr := fun hi => hreg 0x20 (ptr_len_mem_operandsRead hi).1
  have hlen : i ∈ readsBuffer → e.len = s.eng.len := fun hi => hreg 0x28 (ptr_len_mem_operandsRead hi).2
  exact
    { cfg := rfl
      seed0 := hreg 0x30
      seed1 := hreg 0x38
      x0 := hreg 0x40
      x1 := hreg 0x48
      x2 := hreg 0x50
      cap := hcap
      check := fun hi => by simp only [State.bufferCheckFails, hptr hi, hlen hi]
      content := fun hi =>
        { len := by simp only [State.buffer, hlen hi]
          bytes := fun _ _ => by simp only [State.buffer, hptr hi, hmem hi] } }

/-- Settles O54: the two states agree on what the command reads, so it ends alike in both. -/
theorem unlistedOperandsAreIgnored : Obligations.UnlistedOperandsAreIgnored := by
  intro i s e m hlisted hcap hmem hserr
  have hreg : ∀ o ∈ operandsRead i, e.readReg o = s.eng.readReg o := fun o ho => by
    rw [← Engine.lookup_registerMap, hlisted o ho, Engine.lookup_registerMap]
  exact (exec_endAlike (State.sameReads_of_listed hreg hcap hmem)).sameResult hserr

end Sys2Proof.Machine

/-!
SUPPORT. A pseudo-instruction (spec/30_encoding.md R72, R73): its lines, the step of each, and that the order of the `WR` lines
does not matter. The settled statement O58.
-/

namespace Sys2Proof.Machine

/-! ### Register writes commute -/

/-- A register file is what the host reads at every offset (R57). -/
theorem Engine.ext_readReg {e f : Engine} (h : ∀ o, e.readReg o = f.readReg o) : e = f := by
  cases e
  cases f
  rw [Engine.mk.injEq]
  exact ⟨h 0x20, h 0x28, h 0x30, h 0x38, h 0x40, h 0x48, h 0x50, h 0x60, h 0x68, h 0x70, h 0x78, h 0x08, h 0x10⟩

/-- Host writes to two different offsets give the same registers in either order. -/
theorem Engine.writeReg_comm (e : Engine) {o p : Nat} (h : o ≠ p) (v w : Word) :
    (e.writeReg o v).writeReg p w = (e.writeReg p w).writeReg o v := by
  apply Engine.ext_readReg
  intro k
  simp only [Engine.readReg_writeReg]
  by_cases hk : k = o
  · subst hk
    simp [h]
  · simp [hk]

/-! ### Lines -/

/-- The line is a legal `WR` line: it names an operand register (R72). -/
def Line.IsWrite : Line → Prop
  | .wr r _ => r.operand = true
  | .rd _ | .command _ => False

/-- The offset that the transaction of a line accesses (R57, R72). -/
def Line.offset : Line → Nat
  | .wr r _ => r.offset
  | .rd r => r.offset
  | .command _ => 0

/-- The register file after a line, as far as the line is a register write. -/
def Line.writeTo (e : Engine) : Line → Engine
  | .wr r v => e.writeReg r.offset v
  | .rd _ | .command _ => e

/-- `WR` lines with pairwise different registers give the same register file in any order (R73). -/
theorem foldl_writeTo_perm {ls ms : List Line} (hperm : ls.Perm ms) (hwrites : ∀ l ∈ ls, l.IsWrite)
    (hnodup : (ls.map Line.offset).Nodup) (e : Engine) : ls.foldl Line.writeTo e = ms.foldl Line.writeTo e := by
  refine hperm.foldl_eq' (fun l hl m hm f => ?_) e
  by_cases heq : l = m
  · rw [heq]
  have hoff : l.offset ≠ m.offset := fun h => heq (List.inj_on_of_nodup_map hnodup hl hm h)
  have hlw := hwrites l hl
  have hmw := hwrites m hm
  cases l with
  | wr r v => cases m with
    | wr q w => exact f.writeReg_comm hoff v w
    | _ => exact hmw.elim
  | _ => exact hlw.elim

/-! ### The lines of a pseudo-instruction (R73) -/

/-- The `WR` lines of a pseudo-instruction, in the order of R73. -/
def Pseudo.writes (p : Pseudo) : List Line := p.lines.dropLast

/-- The command of a pseudo-instruction. -/
def Pseudo.command : Pseudo → Instr
  | .hash32 _ _ => .h32
  | .hash64 _ _ => .h64
  | .hash64s _ _ _ => .h64s
  | .hash64ss _ _ _ _ => .h64ss
  | .hash128 _ _ => .h128
  | .hash128s _ _ _ _ => .h128s
  | .hash256 _ _ => .h256
  | .hash128c _ _ => .h128c

section
variable (p : Pseudo)

theorem Pseudo.lines_eq : p.lines = p.writes ++ [.command p.command] := by cases p <;> rfl

theorem Pseudo.isWrite_of_mem_writes : ∀ l ∈ p.writes, l.IsWrite := by
  cases p <;> simp [Pseudo.writes, Pseudo.lines, Line.IsWrite, Reg.operand]

theorem Pseudo.writes_offsets_nodup : (p.writes.map Line.offset).Nodup := by
  cases p <;> simp [Pseudo.writes, Pseudo.lines, Line.offset, Reg.offset]

theorem Pseudo.command_wellFormed : p.command.wellFormed = true := by cases p <;> rfl

/-- The `WR` lines in the order of R73 set the operand registers as R73 says. -/
theorem Pseudo.foldl_writes (e : Engine) : p.writes.foldl Line.writeTo e = p.operandsIn e := by cases p <;> rfl

end

/-- The lines of a pseudo-instruction with a command last are its `WR` lines in some order and its own command. -/
theorem Pseudo.perm_lines {p : Pseudo} {ws : List Line} {i : Instr} (h : (ws ++ [Line.command i]).Perm p.lines) :
    i = p.command ∧ ws.Perm p.writes := by
  rw [p.lines_eq] at h
  have hmem : Line.command i ∈ p.writes ++ [.command p.command] := h.mem_iff.mp (by simp)
  have hi : i = p.command := by
    rcases List.mem_append.mp hmem with hw | hc
    · exact (p.isWrite_of_mem_writes _ hw).elim
    · simpa using hc
  subst hi
  exact ⟨rfl, (List.perm_append_right_iff _).mp h⟩

/-! ### The step of a line on the foreground engine -/

/-- The parameters pass their check, and there are as many engines as register blocks (R10, R56). -/
structure State.OneEnginePerBlock (s : State) : Prop where
  wellFormed : s.cfg.wellFormed = true
  count : s.engines.length = s.cfg.neng

/-- What is pending, the reply and the registers of the foreground engine are no part of it. -/
theorem State.OneEnginePerBlock.update {s : State} (hs : s.OneEnginePerBlock) (q : List HostOp) (r : Reply) (e : Engine) :
    State.OneEnginePerBlock { s with queue := q, reply := r, eng := e } where
  wellFormed := hs.wellFormed
  count := by simpa [State.engines] using hs.count

/-- A block holds every offset of R57. -/
theorem Config.blockBytes_of_wellFormed {c : Config} (h : c.wellFormed = true) : 0x80 ≤ c.blockBytes := by
  simp only [Config.wellFormed, Bool.and_eq_true, decide_eq_true_eq] at h
  exact h.2

/-- The host address of an offset of R57 in the block of the foreground engine names that register of it. -/
theorem State.target_blockAddr {s : State} (hs : s.OneEnginePerBlock) {off : Nat} (hoff : off < 0x80)
    (haligned : off % 8 = 0) : s.target (s.blockAddr off) 8 = .reg s off := by
  have hfront : s.lower.length < s.cfg.regbase.length := by
    have hcount : s.engines.length = s.cfg.regbase.length := hs.count
    simp only [State.engines, List.length_append, List.length_cons] at hcount
    omega
  have hblock := Config.blockBytes_of_wellFormed hs.wellFormed
  have hlocate : Config.locate s.cfg (s.blockAddr off) = some (s.lower.length, off) :=
    (hostAddressNamesOneRegister s.cfg _ _ _ hs.wellFormed).mpr
      ⟨s.cfg.regbase[s.lower.length], List.getElem?_eq_getElem hfront, by simp [State.blockAddr, hfront], by omega⟩
  exact State.target_some hlocate s.focus_self haligned

/-- The step of a `WR` line writes its register, answers the host and changes nothing else. -/
theorem step_writeLine {s : State} (hs : s.OneEnginePerBlock) {l : Line} (hl : l.IsWrite) {rest : List HostOp}
    (hq : s.queue = l.hostOp s :: rest) :
    step s = .next { s with queue := rest, reply := .done, eng := l.writeTo s.eng } := by
  rw [step_cons hq]
  cases l with
  | wr r v =>
    have hr : r.offset < 0x80 ∧ r.offset % 8 = 0 ∧ r.offset ≠ 0 := by
      cases r <;> simp_all [Line.IsWrite, Reg.operand, Reg.offset]
    obtain ⟨hlt, haligned, hne⟩ := hr
    exact State.hostWrite_register
      (State.target_blockAddr (hs.update rest s.reply s.eng) hlt haligned) hne v
  | _ => exact hl.elim

/-- The step of a command line runs the command in the state without it that has answered the host (R64). -/
theorem step_commandLine {s : State} (hs : s.OneEnginePerBlock) {i : Instr} (hi : i.wellFormed = true)
    {rest : List HostOp} (hq : s.queue = Line.hostOp s (.command i) :: rest) :
    step s = exec i { s with queue := rest, reply := .done } := by
  have htarget := State.target_blockAddr (hs.update rest s.reply s.eng) (off := 0) (by omega) rfl
  have hissue := State.hostWrite_cmd htarget (hostValue i)
  rw [State.issue_of_command (decodeEncodeRoundTrip i hi)] at hissue
  rw [step_cons hq]
  exact hissue

/-! ### The run of the lines -/

/-- One step from a state is its step. -/
theorem stepsFrom_one (s : State) : stepsFrom 1 s = step s := by
  rw [stepsFrom]
  cases step s <;> rfl

/-- After a step that answers a next state the other steps follow from there. -/
theorem stepsFrom_succ {s t : State} (h : step s = .next t) (k : Nat) : stepsFrom (k + 1) s = stepsFrom k t := by
  rw [stepsFrom, h]

/-- `WR` lines followed by a command line, one step for each: the command runs with the registers the lines have written. -/
theorem stepsFrom_load {i : Instr} (hi : i.wellFormed = true) {ws : List Line} (hws : ∀ l ∈ ws, l.IsWrite) {s : State}
    (hs : s.OneEnginePerBlock) :
    stepsFrom (ws.length + 1) (s.load (ws ++ [.command i])) =
      exec i { s with reply := .done, eng := ws.foldl Line.writeTo s.eng } := by
  induction ws generalizing s with
  | nil =>
    rw [List.length_nil, stepsFrom_one]
    exact step_commandLine (hs.update _ s.reply s.eng) hi rfl
  | cons l ws ih =>
    obtain ⟨hl, hws⟩ := List.forall_mem_cons.mp hws
    have hstep : step (s.load (l :: ws ++ [.command i])) =
        .next (State.load { s with reply := .done, eng := l.writeTo s.eng } (ws ++ [.command i])) :=
      step_writeLine (hs.update _ s.reply s.eng) hl rfl
    rw [List.length_cons, stepsFrom_succ hstep, ih hws (hs.update s.queue .done (l.writeTo s.eng)), List.foldl_cons]

/-! ### The digest call -/

/-- What the host was answered last is no input of a command (R20). -/
theorem State.sameInputs_reply (s : State) (r : Reply) : s.SameInputs { s with reply := r } where
  cfg := rfl
  operands := ⟨rfl, rfl, rfl, rfl, rfl, rfl, rfl, rfl⟩
  serr := rfl
  bytes _ _ := rfl

/-- Commands that end alike in states with the same engines leave the same engines, and memory alone. -/
theorem State.EndAlike.engines_eq {s t : State} {o p : Host.Outcome State Fault Refusal} (h : s.EndAlike t o p)
    (hlower : t.lower = s.lower) (heng : t.eng = s.eng) (hupper : t.upper = s.upper) :
    ∃ s' t', o = .next s' ∧ p = .next t' ∧ t'.engines = s'.engines ∧ t'.mem = t.mem := by
  cases h with
  | complete r => exact ⟨_, _, rfl, rfl, by simp [State.engines, hlower, heng, hupper], rfl⟩
  | raise x => exact ⟨_, _, rfl, rfl, by simp [State.engines, hlower, heng, hupper], rfl⟩

/-- Settles O58: the `WR` lines set the operands in any order, and the command ignores that the host was answered. -/
theorem pseudoInstructionIsOneDigestCall : Obligations.PseudoInstructionIsOneDigestCall := by
  intro s p ws i hwf hcount _ hlines
  obtain ⟨rfl, hperm⟩ := Pseudo.perm_lines hlines
  have hwrites : ∀ l ∈ ws, l.IsWrite := fun l hl => p.isWrite_of_mem_writes l (hperm.mem_iff.mp hl)
  have hoperands : ws.foldl Line.writeTo s.eng = p.operandsIn s.eng := by
    rw [← p.foldl_writes]
    exact (foldl_writeTo_perm hperm.symm p.isWrite_of_mem_writes p.writes_offsets_nodup s.eng).symm
  have hrun := stepsFrom_load p.command_wellFormed hwrites ⟨hwf, hcount⟩
  rw [hoperands] at hrun
  have halike := exec_endAlike
    ((State.sameInputs_reply { s with eng := p.operandsIn s.eng } .done).sameReads p.command)
  obtain ⟨u, t, hu, ht, hengines, hmem⟩ := halike.engines_eq rfl rfl rfl
  exact ⟨t, u, hrun.trans ht, hu, hengines, hmem⟩

end Sys2Proof.Machine

/-!
SUPPORT. The rotations (spec/40_primitives.md R86, R87), and the settled statements O21 and O22. Both are the library's
`BitVec.rotateRight`; the facts about it are proved once for every width.
-/

namespace Sys2Proof.Machine

/-! ### Right rotation of a bit vector of any width -/

section
variable {w : Nat} (v : BitVec w) (s : Nat)

/-- Bit `k` of a right rotation by `s` is bit `(k + s) mod w`. -/
theorem getLsbD_rotateRight_eq_mod {k : Nat} (hk : k < w) :
    (v.rotateRight s).getLsbD k = v.getLsbD ((k + s) % w) := by
  have hr : s % w < w := Nat.mod_lt s (by omega)
  rw [BitVec.getLsbD_rotateRight, ← Nat.add_mod_mod]
  generalize s % w = r at hr
  by_cases hwrap : k < w - r
  · rw [Nat.mod_eq_of_lt (show k + r < w by omega)]
    simp [hwrap, Nat.add_comm]
  · rw [Nat.mod_eq_sub_mod (show w ≤ k + r by omega), Nat.mod_eq_of_lt (show k + r - w < w by omega)]
    simp [hwrap, hk, show k - (w - r) = k + r - w by omega]

/-- A right rotation by less than the width, over the integers: the two parts of the `or` do not overlap. -/
theorem toNat_rotateRight_eq_rotRight (hs : s < w) : (v.rotateRight s).toNat = rotRight w v.toNat s := by
  have hpow : 2 ^ w = 2 ^ s * 2 ^ (w - s) := by rw [← Nat.pow_add, Nat.add_sub_of_le hs.le]
  have hquot : v.toNat / 2 ^ s < 2 ^ (w - s) := Nat.div_lt_of_lt_mul (hpow ▸ v.isLt)
  have htop : v.toNat <<< (w - s) % 2 ^ w = 2 ^ (w - s) * (v.toNat % 2 ^ s) := by
    rw [Nat.shiftLeft_eq, hpow, Nat.mul_mod_mul_right, Nat.mul_comm]
  rw [BitVec.toNat_rotateRight, Nat.mod_eq_of_lt hs, htop, Nat.shiftRight_eq_div_pow, Nat.or_comm,
    ← Nat.two_pow_add_eq_or_of_lt hquot, rotRight, Nat.add_comm, Nat.mul_comm]

/-- Rotating right loses no bit. -/
theorem rotateRight_injective : Function.Injective fun v : BitVec w => v.rotateRight s := by
  intro u v huv
  apply BitVec.eq_of_getLsbD_eq
  intro k hk
  have hr : s % w < w := Nat.mod_lt s (by omega)
  have hback : ((k + (w - s % w)) % w + s) % w = k := by
    rw [Nat.mod_add_mod, ← Nat.add_mod_mod, Nat.add_assoc, Nat.sub_add_cancel hr.le, Nat.add_mod_right,
      Nat.mod_eq_of_lt hk]
  have hbit := congrArg (BitVec.getLsbD · ((k + (w - s % w)) % w)) huv
  simpa only [getLsbD_rotateRight_eq_mod _ s (Nat.mod_lt _ (show 0 < w by omega)), hback] using hbit

end

/-! ### Rot64 and Rot32 -/

/-- Rot64 is the right rotation of the library: with amount 0 both parts of the `or` are defined too (R86). -/
theorem rot64_eq_rotateRight (v : Word) (s : BitVec 6) : rot64 v s = v.rotateRight s.toNat := by
  rw [rot64, BitVec.rotateRight_def, Nat.mod_eq_of_lt s.isLt]
  split
  case isTrue hs => subst hs; simp
  case isFalse => rfl

/-- Rot32 is the right rotation of the library (R87). -/
theorem rot32_eq_rotateRight (v : Half) (s : BitVec 5) : rot32 v s = v.rotateRight s.toNat := by
  rw [rot32, BitVec.rotateRight_def, Nat.mod_eq_of_lt s.isLt]
  split
  case isTrue hs => subst hs; simp
  case isFalse => rfl

/-- Bit `k` of Rot64 is bit `(k + s) mod 64` (R86). -/
theorem getLsbD_rot64 (v : Word) (s : BitVec 6) {k : Nat} (hk : k < 64) :
    (rot64 v s).getLsbD k = v.getLsbD ((k + s.toNat) % 64) := by
  rw [rot64_eq_rotateRight, getLsbD_rotateRight_eq_mod v s.toNat hk]

/-- Rot64 over the integers (R86). -/
theorem rot64_toNat (v : Word) (s : BitVec 6) : (rot64 v s).toNat = rotRight 64 v.toNat s.toNat := by
  rw [rot64_eq_rotateRight, toNat_rotateRight_eq_rotRight v s.toNat s.isLt]

/-- Rot32 over the integers (R87). -/
theorem rot32_toNat (v : Half) (s : BitVec 5) : (rot32 v s).toNat = rotRight 32 v.toNat s.toNat := by
  rw [rot32_eq_rotateRight, toNat_rotateRight_eq_rotRight v s.toNat s.isLt]

/-- Rot64 by a fixed amount loses no bit. -/
theorem rot64_injective (s : BitVec 6) : Function.Injective fun v => rot64 v s := by
  simpa only [rot64_eq_rotateRight] using rotateRight_injective (w := 64) s.toNat

/-- Bit `k` of the zero-extended Rot32 of a low half: bit `(k + s) mod 32` of the word below bit 32, 0 above (R87, R101). -/
theorem getLsbD_zext64_rot32_lowHalf (v : Word) (s : BitVec 5) {k : Nat} (hk : k < 64) :
    (zext64 (rot32 (lowHalf v) s)).getLsbD k = (decide (k < 32) && v.getLsbD ((k + s.toNat) % 32)) := by
  rw [zext64, BitVec.getLsbD_setWidth, rot32_eq_rotateRight]
  by_cases hlow : k < 32
  · rw [getLsbD_rotateRight_eq_mod _ _ hlow, lowHalf, BitVec.getLsbD_extractLsb']
    simp [hk, hlow, Nat.mod_lt]
  · simp [hlow, BitVec.getLsbD_of_ge _ k (show 32 ≤ k by omega)]

/-! ### The rotation commands -/

/-- The amount of ROT64R is X1 mod 64 (R100). -/
theorem amount64_toNat (v : Word) : (amount64 v).toNat = v.toNat % 64 := by simp [amount64]

/-- The amount of ROT32R is X1 mod 32 (R102). -/
theorem amount32_toNat (v : Word) : (amount32 v).toNat = v.toNat % 32 := by simp [amount32]

/-- The amount of a legal ROT32I is SH (R101). -/
theorem immediate32_toNat {sh : BitVec 6} (h : sh.toNat ≤ 31) : (immediate32 sh).toNat = sh.toNat := by
  simp only [immediate32, BitVec.extractLsb'_toNat, Nat.shiftRight_zero]
  omega

/-- ROT32I with an amount up to 31 completes (R101). -/
theorem execRot32i_of_le {sh : BitVec 6} (h : sh.toNat ≤ 31) (s : State) :
    execRot32i sh s = .next (s.complete (.one (zext64 (rot32 (lowHalf s.eng.x0) (immediate32 sh))))) :=
  if_neg (by omega)

/-- ROT32I with an amount of 32 or more ends with IllegalCommand (R101). -/
theorem execRot32i_of_ge {sh : BitVec 6} (h : 32 ≤ sh.toNat) (s : State) :
    execRot32i sh s = .next (s.raise .illegalCommand) :=
  if_pos h

/-- Settles O21: one result word with the bits of `getLsbD_rot64`. -/
theorem rot64CommandsRotateRight : Obligations.Rot64CommandsRotateRight := by
  intro s sh
  refine ⟨⟨_, rot64 s.eng.x0 sh, rfl, s.complete_one _, fun k hk => getLsbD_rot64 _ _ hk⟩,
    ⟨_, rot64 s.eng.x0 (amount64 s.eng.x1), rfl, s.complete_one _, fun k hk => ?_⟩⟩
  rw [getLsbD_rot64 _ _ hk, amount64_toNat]

/-- Settles O22: below 32 one result word with the bits of `getLsbD_zext64_rot32_lowHalf`, from 32 on the error form. -/
theorem rot32CommandsRotateRight : Obligations.Rot32CommandsRotateRight := by
  intro s sh
  refine ⟨fun hsh => ⟨_, _, execRot32i_of_le hsh s, s.complete_one _, fun k hk => ?_⟩,
    fun hsh => ⟨_, execRot32i_of_ge hsh s, s.raise_fails .illegalCommand⟩,
    ⟨_, zext64 (rot32 (lowHalf s.eng.x0) (amount32 s.eng.x1)), rfl, s.complete_one _, fun k hk => ?_⟩⟩
  · rw [getLsbD_zext64_rot32_lowHalf _ _ hk, immediate32_toNat hsh]
  · rw [getLsbD_zext64_rot32_lowHalf _ _ hk, amount32_toNat]

end Sys2Proof.Machine

/-!
SUPPORT. The mixing functions step by step over the integers (spec/40_primitives.md R88 to R94, R96, spec/41_core64.md R133),
and the commands that compute them: the settled statements O23 to O25 and O27.
-/

namespace Sys2Proof.Machine

/-! ### Each function follows its steps -/

/-- Fold follows its steps (R90). -/
theorem foldSteps_fold (u v m : Word) : FoldSteps u v m (fold u v m) :=
  ⟨(u ^^^ v) * m, _, BitVec.toNat_mul .., BitVec.toNat_mul .., BitVec.toNat_mul ..⟩

/-- WeakMix follows its steps (R92). -/
theorem weakMixSteps_weakMix (w x y z a b : Word) :
    WeakMixSteps w x y z a b (weakMix w x y z a b).1 (weakMix w x y z a b).2 := by
  refine ⟨b + (a + w) + z, a + w + x + y, ?_, ?_, ?_, ?_⟩ <;> simp only [weakMix, BitVec.toNat_add] <;> omega

/-- Mur32 follows its steps (R93). -/
theorem mur32Steps_mur32 (c : Config) (a h : Half) : Mur32Steps c a h (mur32 c a h) := by
  refine ⟨a * c.c1, rot32 (a * c.c1) 17 * c.c2, BitVec.toNat_mul .., BitVec.toNat_mul .., ?_⟩
  simp [mur32, BitVec.toNat_add, BitVec.toNat_mul]

/-- Fmix32 follows its steps (R94). -/
theorem fmix32Steps_fmix32 (c : Config) (h : Half) : Fmix32Steps c h (fmix32 c h) :=
  ⟨_, _, BitVec.toNat_mul .., BitVec.toNat_mul .., rfl⟩

/-- Absorb8 follows its steps (R96). -/
theorem absorb8Steps_absorb8 (c : Config) (acc w : Word) : Absorb8Steps c acc w (absorb8 c acc w) :=
  ⟨_, _, BitVec.toNat_mul .., BitVec.toNat_mul .., BitVec.toNat_mul ..⟩

/-- Absorb16 follows its steps (R133): the xors of its rotations over the integers. -/
theorem absorb16Steps_absorb16 (c : Config) (u v w0 w1 : Word) :
    Absorb16Steps c u v w0 w1 (absorb16 c u v w0 w1).1 (absorb16 c u v w0 w1).2 := by
  refine ⟨absorb8 c u w0, rot64 v 33 ^^^ absorb8 c u w0, absorb8Steps_absorb8 c u w0, ?_,
    absorb8Steps_absorb8 c _ w1, ?_⟩
  · rw [BitVec.toNat_xor, rot64_toNat]
    rfl
  · rw [absorb16, BitVec.toNat_xor, rot64_toNat]
    rfl

/-- Bit `k` of ShiftMix (R88): the bits from 64 on, which do not exist, read false. -/
theorem getLsbD_shiftMix (v : Word) (k : Nat) : (shiftMix v).getLsbD k = xor (v.getLsbD k) (v.getLsbD (k + 47)) := by
  rw [shiftMix, BitVec.getLsbD_xor, BitVec.getLsbD_ushiftRight, Nat.add_comm]

/-! ### The commands -/

/-- An offset that leaves room passes the offset check (R198). -/
theorem State.offsetCheckFails_of_le {s : State} {o : Word} {k : Nat} (h : o.toNat + k ≤ s.eng.len.toNat) :
    s.offsetCheckFails o k = false :=
  decide_eq_false (Nat.not_lt.mpr h)

/-- A command that reads `k` bytes at an offset passes both checks when the buffer fits and the offset leaves room. -/
theorem State.checks_of_fits {s : State} {o : Word} {k : Nat} (hfits : s.bufferFits)
    (hoff : o.toNat + k ≤ s.eng.len.toNat) : ¬ (s.bufferCheckFails || s.offsetCheckFails o k) = true := by
  simp [State.bufferCheckFails_of_fits hfits, State.offsetCheckFails_of_le hoff]

/-- Settles O23: from bit 17 on, the second bit of `getLsbD_shiftMix` is one that does not exist. -/
theorem shmixXorsTopBitsIntoLowBits : Obligations.ShmixXorsTopBitsIntoLowBits := by
  intro s
  refine ⟨_, shiftMix s.eng.x0, rfl, s.complete_one _, fun k _ => getLsbD_shiftMix _ k, fun k hk _ => ?_⟩
  rw [getLsbD_shiftMix, BitVec.getLsbD_of_ge s.eng.x0 (k + 47) (by omega), Bool.xor_false]

/-- Settles O24: both commands complete with a Fold. -/
theorem foldCommandsMultiplyFold : Obligations.FoldCommandsMultiplyFold := fun s =>
  ⟨⟨_, _, rfl, s.complete_one _, foldSteps_fold s.eng.x0 s.eng.x1 s.cfg.kmul⟩,
    ⟨_, _, rfl, s.complete_one _, foldSteps_fold s.eng.x0 s.eng.x1 s.eng.x2⟩⟩

/-- Settles O25: with both checks passed the command completes with a WeakMix. -/
theorem wmixMixesFourBufferWords : Obligations.WmixMixesFourBufferWords := fun s hfits hoff =>
  ⟨_, _, _, if_neg (State.checks_of_fits hfits hoff), s.complete_two _ _, weakMixSteps_weakMix ..⟩

/-- Settles O27: the commands complete with the zero-extended Mur32 and Fmix32 of the low halves. -/
theorem mur32AndFmix32Commands : Obligations.Mur32AndFmix32Commands := fun s =>
  ⟨⟨_, _, rfl, s.complete_one _, mur32Steps_mur32 s.cfg (lowHalf s.eng.x0) (lowHalf s.eng.x1)⟩,
    ⟨_, _, rfl, s.complete_one _, fmix32Steps_fmix32 s.cfg (lowHalf s.eng.x0)⟩⟩

end Sys2Proof.Machine

/-!
SUPPORT. The fetch commands (spec/40_primitives.md R107, R109): the settled statement O26.
-/

namespace Sys2Proof.Machine

/-- The bytes of `F32(o)` above the fourth are 0 (R15). -/
theorem Buffer.f32_highByte (b : Buffer) (o : Nat) {k : Nat} (hk : 4 ≤ k) : (b.f32 o).extractLsb' (8 * k) 8 = 0 := by
  have hlt : (b.f32 o).toNat < 2 ^ (8 * k) := (b.f32_lt o).trans_le (Nat.pow_le_pow_right (by decide) (by omega))
  apply BitVec.eq_of_toNat_eq
  rw [BitVec.extractLsb'_toNat, Nat.shiftRight_eq_div_pow, Nat.div_eq_of_lt hlt]
  rfl

/-- Settles O26: with both checks passed the commands complete with F32 and F64, whose bytes are the memory's. -/
theorem fetchCommandsReturnBufferBytes : Obligations.FetchCommandsReturnBufferBytes := by
  intro s hfits
  refine ⟨fun hoff => ⟨_, s.buffer.f32 s.eng.x0.toNat, if_neg (State.checks_of_fits hfits hoff), s.complete_one _,
    fun k _ => ?_⟩, fun hoff => ⟨_, s.buffer.f64 s.eng.x0.toNat, if_neg (State.checks_of_fits hfits hoff),
    s.complete_one _, fun k hk => extractLsb'_of_toNat_eq_memRead (s.buffer.f64_toNat _) hk⟩⟩
  split
  case isTrue hk => exact extractLsb'_of_toNat_eq_memRead (s.buffer.f32_toNat _) hk
  case isFalse hk => exact s.buffer.f32_highByte _ (Nat.le_of_not_lt hk)

end Sys2Proof.Machine

/-!
SUPPORT. Bijectivity of the mixing functions (spec/40_primitives.md R88, R94, R96, spec/41_core64.md R133): the settled
statements O31, O32 and O34. An injective function on bit vectors of one width is a bijection, so each step is shown to lose
nothing: xor-shift, multiplication by an odd word, xor with a word.
-/

namespace Sys2Proof.Machine

/-! ### The steps, at any width -/

section
variable {w : Nat}

/-- A bit vector that equals its own shift by at least 1 is 0. -/
theorem eq_zero_of_eq_ushiftRight {z : BitVec w} {k : Nat} (hk : 0 < k) (h : z = z >>> k) : z = 0 := by
  have hdiv : z.toNat = z.toNat / 2 ^ k := by simpa [Nat.shiftRight_eq_div_pow] using congrArg BitVec.toNat h
  apply BitVec.eq_of_toNat_eq
  by_contra hne
  have hpos : 0 < z.toNat := Nat.pos_of_ne_zero (by simpa using hne)
  exact (Nat.div_lt_self hpos (Nat.one_lt_two_pow hk.ne')).ne hdiv.symm

/-- The xor-shift step loses nothing: the difference of two words with one image equals its own shift. -/
theorem xorShift_injective {k : Nat} (hk : 0 < k) : Function.Injective fun v : BitVec w => v ^^^ (v >>> k) := by
  intro u v (huv : u ^^^ u >>> k = v ^^^ v >>> k)
  have hdiff : u ^^^ v = (u ^^^ v) >>> k := by
    rw [BitVec.ushiftRight_xor_distrib, ← BitVec.xor_eq_zero_iff]
    rw [← BitVec.xor_eq_zero_iff] at huv
    rw [← huv]
    ac_rfl
  exact BitVec.xor_eq_zero_iff.mp (eq_zero_of_eq_ushiftRight hk hdiff)

/-- Multiplication by an odd word loses nothing: it is coprime to 2^w. -/
theorem mulOdd_injective {m : BitVec w} (hm : m.toNat % 2 = 1) : Function.Injective fun v : BitVec w => v * m := by
  intro u v huv
  have hcop : Nat.gcd (2 ^ w) m.toNat = 1 := Nat.Coprime.pow_left w (Nat.coprime_two_left.mpr (Nat.odd_iff.mpr hm))
  have hmod : u.toNat * m.toNat ≡ v.toNat * m.toNat [MOD 2 ^ w] := by
    simpa only [BitVec.toNat_mul, Nat.ModEq] using congrArg BitVec.toNat huv
  exact BitVec.eq_of_toNat_eq ((hmod.cancel_right_of_coprime hcop).eq_of_lt_of_lt u.isLt v.isLt)

end

/-! ### ShiftMix and Fmix32 -/

/-- ShiftMix loses nothing: it is an xor-shift by 47. -/
theorem shiftMix_injective : Function.Injective shiftMix := xorShift_injective (by decide)

/-- Settles O31: ShiftMix loses nothing. -/
theorem shiftMixIsBijective : Obligations.ShiftMixIsBijective :=
  Finite.injective_iff_bijective.mp shiftMix_injective

/-- Fmix32 loses nothing for odd multipliers: three xor-shifts with the two multiplications between them. -/
theorem fmix32_injective {c : Config} (hf1 : c.f1.toNat % 2 = 1) (hf2 : c.f2.toNat % 2 = 1) :
    Function.Injective (fmix32 c) :=
  (xorShift_injective (k := 16) (by decide)).comp <| (mulOdd_injective hf2).comp <|
    (xorShift_injective (k := 13) (by decide)).comp <| (mulOdd_injective hf1).comp <|
      xorShift_injective (k := 16) (by decide)

/-- Settles O32: Fmix32 loses nothing, and each of its steps maps 0 to 0. -/
theorem fmix32IsBijective : Obligations.Fmix32IsBijective := fun _ hf1 hf2 =>
  ⟨Finite.injective_iff_bijective.mp (fmix32_injective hf1 hf2), by simp [fmix32]⟩

/-! ### Absorb8 and Absorb16 -/

/-- Two calls of Absorb16 agree exactly when their two inner Absorb8 agree: the rotation of the first one is lossless. -/
theorem absorb16_eq_iff {c : Config} {u v w0 w1 u' v' w0' w1' : Word} :
    absorb16 c u v w0 w1 = absorb16 c u' v' w0' w1' ↔ absorb8 c u w0 = absorb8 c u' w0' ∧
      absorb8 c (rot64 v 33 ^^^ absorb8 c u w0) w1 = absorb8 c (rot64 v' 33 ^^^ absorb8 c u' w0') w1' := by
  simp only [absorb16, Prod.mk.injEq]
  constructor
  · rintro ⟨hfst, hsnd⟩
    rw [hsnd, BitVec.xor_left_inj] at hfst
    exact ⟨rot64_injective 29 hfst, hsnd⟩
  · rintro ⟨hfst, hsnd⟩
    rw [hsnd, hfst]
    exact ⟨rfl, rfl⟩

section
variable {c : Config} (hk1 : c.k1.toNat % 2 = 1)
include hk1

/-- Absorb8 is injective in the word. -/
theorem absorb8_injective_word (acc : Word) : Function.Injective fun w => absorb8 c acc w :=
  have hxor : Function.Injective fun v => acc ^^^ v := fun _ _ => (BitVec.xor_right_inj acc).mp
  (mulOdd_injective hk1).comp <| hxor.comp <| (mulOdd_injective hk1).comp <| shiftMix_injective.comp <|
    mulOdd_injective hk1

/-- Absorb8 is injective in the accumulator. -/
theorem absorb8_injective_acc (w : Word) : Function.Injective fun acc => absorb8 c acc w :=
  (mulOdd_injective hk1).comp fun _ _ => (BitVec.xor_left_inj _).mp

/-- Absorb16 is injective in the pair of accumulators. -/
theorem absorb16_injective_acc (w0 w1 : Word) :
    Function.Injective fun p : Word × Word => absorb16 c p.1 p.2 w0 w1 := by
  rintro ⟨u, v⟩ ⟨u', v'⟩ h
  obtain ⟨hfst, hsnd⟩ := absorb16_eq_iff.mp h
  obtain rfl : u = u' := absorb8_injective_acc hk1 w0 hfst
  have hrot : rot64 v 33 = rot64 v' 33 := (BitVec.xor_left_inj _).mp (absorb8_injective_acc hk1 w1 hsnd)
  rw [rot64_injective 33 hrot]

/-- Absorb16 is injective in the pair of words. -/
theorem absorb16_injective_words (u v : Word) :
    Function.Injective fun p : Word × Word => absorb16 c u v p.1 p.2 := by
  rintro ⟨w0, w1⟩ ⟨w0', w1'⟩ h
  obtain ⟨hfst, hsnd⟩ := absorb16_eq_iff.mp h
  obtain rfl : w0 = w0' := absorb8_injective_word hk1 u hfst
  obtain rfl : w1 = w1' := absorb8_injective_word hk1 _ hsnd
  rfl

end

/-- Settles O34: the steps, and the injective functions on words and pairs of words are bijections. -/
theorem absorbersAreBijective : Obligations.AbsorbersAreBijective := by
  intro c
  refine ⟨absorb8Steps_absorb8 c, absorb16Steps_absorb16 c, fun hodd => ?_⟩
  have hk1 : c.k1.toNat % 2 = 1 := by simpa [oddWord] using hodd
  simp only [← Finite.injective_iff_bijective]
  exact ⟨absorb8_injective_word hk1, absorb8_injective_acc hk1, absorb16_injective_acc hk1, absorb16_injective_words hk1⟩

end Sys2Proof.Machine

/-!
SUPPORT. The CRC step (spec/40_primitives.md R95, R117): it is linear, equals its byte-wise form, and follows its rounds. The
settled statements O28, O29, O30, and with the steps of the other mixing functions O59.
-/

namespace Sys2Proof.Machine

/-! ### Parts of a word -/

/-- The low half of a zero-extended half word is that half word. -/
theorem lowHalf_zext64 (h : Half) : lowHalf (zext64 h) = h := by
  apply BitVec.eq_of_getLsbD_eq
  intro i hi
  simp [lowHalf, zext64, hi, show i < 64 by omega]

/-- A word is its low byte and, above it, the other bytes. -/
theorem eq_lowByte_xor (w : Word) : w = (w.extractLsb' 0 8).setWidth 64 ^^^ (w >>> 8) <<< 8 := by
  apply BitVec.eq_of_getLsbD_eq
  intro i hi
  by_cases hlow : i < 8
  · simp [hi, hlow]
  · simp [hi, hlow, show 8 + (i - 8) = i by omega]

section
variable (poly : Half)

/-! ### Rounds -/

/-- A round of an even value only shifts (R95). -/
theorem crcRound_of_even {x : Word} (h : x.getLsbD 0 = false) : crcRound poly x = x >>> 1 := by
  rw [crcRound, h, if_neg Bool.false_ne_true]

/-- A round of an odd value shifts and xors the polynomial in (R95). -/
theorem crcRound_of_odd {x : Word} (h : x.getLsbD 0 = true) : crcRound poly x = x >>> 1 ^^^ poly.setWidth 64 := by
  rw [crcRound, h, if_pos rfl]

/-- `m + n` rounds are `m` rounds followed by `n`. -/
theorem crcRounds_add (m n : Nat) (x : Word) : crcRounds poly (m + n) x = crcRounds poly n (crcRounds poly m x) := by
  induction m generalizing x with
  | zero => rw [Nat.zero_add, crcRounds]
  | succ m ih => rw [Nat.succ_add, crcRounds, crcRounds, ih]

/-- One round is linear over GF(2): the bit shifted out of a xor is the xor of the bits. -/
theorem crcRound_xor (x y : Word) : crcRound poly (x ^^^ y) = crcRound poly x ^^^ crcRound poly y := by
  have hbit := BitVec.getLsbD_xor (x := x) (y := y) (i := 0)
  have hshift := BitVec.ushiftRight_xor_distrib x y 1
  cases hx : x.getLsbD 0 <;> cases hy : y.getLsbD 0 <;> rw [hx, hy] at hbit
  case false.false => rw [crcRound_of_even _ hbit, crcRound_of_even _ hx, crcRound_of_even _ hy, hshift]
  case false.true =>
    rw [crcRound_of_odd _ hbit, crcRound_of_even _ hx, crcRound_of_odd _ hy, hshift]
    ac_rfl
  case true.false =>
    rw [crcRound_of_odd _ hbit, crcRound_of_odd _ hx, crcRound_of_even _ hy, hshift]
    ac_rfl
  case true.true =>
    rw [crcRound_of_even _ hbit, crcRound_of_odd _ hx, crcRound_of_odd _ hy, hshift]
    calc x >>> 1 ^^^ y >>> 1 = x >>> 1 ^^^ y >>> 1 ^^^ (poly.setWidth 64 ^^^ poly.setWidth 64) := by simp
      _ = x >>> 1 ^^^ poly.setWidth 64 ^^^ (y >>> 1 ^^^ poly.setWidth 64) := by ac_rfl

/-- Rounds are linear over GF(2). -/
theorem crcRounds_xor (n : Nat) (x y : Word) :
    crcRounds poly n (x ^^^ y) = crcRounds poly n x ^^^ crcRounds poly n y := by
  induction n generalizing x y with
  | zero => rfl
  | succ n ih => rw [crcRounds, crcRounds, crcRounds, crcRound_xor, ih]

/-- Rounds of 0 give 0. -/
theorem crcRounds_zero (n : Nat) : crcRounds poly n 0 = 0 := by
  induction n with
  | zero => rfl
  | succ n ih => rw [crcRounds, show crcRound poly 0 = 0 by simp [crcRound], ih]

/-- `n` rounds of a word whose low `n` bits are 0 only shift it: the polynomial never enters. -/
theorem crcRounds_of_lowBits_zero {n : Nat} {x : Word} (h : ∀ i, i < n → x.getLsbD i = false) :
    crcRounds poly n x = x >>> n := by
  induction n generalizing x with
  | zero => simp [crcRounds]
  | succ n ih =>
    have hlow : ∀ i, i < n → (x >>> 1).getLsbD i = false := fun i hi => by
      rw [BitVec.getLsbD_ushiftRight]
      exact h (1 + i) (by omega)
    rw [crcRounds, crcRound_of_even poly (h 0 n.succ_pos), ih hlow, ← BitVec.shiftRight_add, Nat.add_comm]

/-- On a zero-extended remainder a round is the round of the byte-wise form. -/
theorem crcRound_setWidth (e : Half) : crcRound poly (e.setWidth 64) = (crcByteRound poly e).setWidth 64 := by
  have hshift : (e >>> 1).setWidth 64 = e.setWidth 64 >>> 1 := BitVec.setWidth_ushiftRight (by decide)
  have hlow : (e.setWidth 64).getLsbD 0 = e.getLsbD 0 := by simp
  rw [crcRound, crcByteRound, hlow]
  split
  · rw [BitVec.setWidth_xor, hshift]
  · rw [hshift]

/-- On a zero-extended remainder rounds are the rounds of the byte-wise form. -/
theorem crcRounds_setWidth (n : Nat) (e : Half) :
    crcRounds poly n (e.setWidth 64) = (crcByteRounds poly n e).setWidth 64 := by
  induction n generalizing e with
  | zero => rfl
  | succ n ih => rw [crcRounds, crcByteRounds, crcRound_setWidth, ih]

/-! ### The byte-wise form -/

/-- Eight rounds of a word with low byte 0 shift it down. -/
theorem crcRounds_highBytes (w : Word) : crcRounds poly 8 ((w >>> 8) <<< 8) = w >>> 8 := by
  rw [crcRounds_of_lowBits_zero poly fun i hi => by simp [hi]]
  apply BitVec.eq_of_getLsbD_eq
  intro i _
  simpa using BitVec.lt_of_getLsbD

/-- Eight rounds consume the low byte of the data word and shift the other bytes down: the byte goes into the remainder, and
the rounds of the rest only shift it, as its low byte is 0. -/
theorem crcRounds_byte (e : Half) (w : Word) :
    crcRounds poly 8 (e.setWidth 64 ^^^ w) =
      (crcByteRounds poly 8 (e ^^^ (w.extractLsb' 0 8).setWidth 32)).setWidth 64 ^^^ w >>> 8 := by
  have hsplit : e.setWidth 64 ^^^ w =
      (e ^^^ (w.extractLsb' 0 8).setWidth 32).setWidth 64 ^^^ (w >>> 8) <<< 8 := by
    rw [BitVec.setWidth_xor, BitVec.setWidth_setWidth (by decide), BitVec.xor_assoc, ← eq_lowByte_xor]
  rw [hsplit, crcRounds_xor, crcRounds_setWidth, crcRounds_highBytes]

end

variable (c : Config)

/-- The rounds of the last `left` bytes of the data word, `j` being consumed, leave the remainder of the byte-wise form. -/
theorem crcRounds_eq_crcBytes (w : Word) {left j : Nat} (h : j + left = 8) (e : Half) :
    crcRounds c.poly (8 * left) (e.setWidth 64 ^^^ w >>> (8 * j)) = (crcBytes c w left j e).setWidth 64 := by
  induction left generalizing j e with
  | zero =>
    obtain rfl : j = 8 := h
    rw [BitVec.ushiftRight_eq_zero (Nat.le_refl 64), BitVec.xor_zero]
    rfl
  | succ left ih =>
    have hbyte : (w >>> (8 * j)).extractLsb' 0 8 = w.extractLsb' (8 * j) 8 := by
      apply BitVec.eq_of_getLsbD_eq
      simp
    rw [Nat.mul_succ, Nat.add_comm (8 * left), crcRounds_add, crcRounds_byte, hbyte, ← BitVec.shiftRight_add,
      ← Nat.mul_succ, ih (by omega), crcBytes]

/-- Settles O29: eight bytes of eight rounds each. -/
theorem crcStepEqualsByteWiseForm : Obligations.CrcStepEqualsByteWiseForm := by
  intro c e w
  have hbytes := crcRounds_eq_crcBytes c w (left := 8) (j := 0) rfl e
  rw [Nat.mul_zero, BitVec.ushiftRight_zero] at hbytes
  rw [crcStep, hbytes]
  exact lowHalf_zext64 _

/-! ### Linearity -/

/-- Settles O30: the rounds are linear, and so is taking the low half. -/
theorem crcStepIsLinear : Obligations.CrcStepIsLinear := by
  intro c e w
  constructor
  · simp only [crcStep, ← BitVec.extractLsb'_xor, ← crcRounds_xor]
    simp
  · rw [crcStep, show BitVec.setWidth 64 (0 : Half) ^^^ 0 = 0 by decide, crcRounds_zero]
    rfl

/-! ### The rounds over the integers -/

/-- One round over the integers: halve, and xor the polynomial in if the value was odd (R95). -/
theorem crcRound_toNat (poly : Half) (x : Word) :
    (crcRound poly x).toNat = if x.toNat % 2 = 1 then x.toNat / 2 ^^^ poly.toNat else x.toNat / 2 := by
  have hodd : x.getLsbD 0 = decide (x.toNat % 2 = 1) := by simp [BitVec.getLsbD]
  have hpoly : poly.toNat < 2 ^ 64 := by omega
  split
  case isTrue h =>
    rw [crcRound_of_odd _ (hodd.trans (decide_eq_true h)), BitVec.toNat_xor, BitVec.toNat_ushiftRight,
      BitVec.toNat_setWidth, Nat.mod_eq_of_lt hpoly, Nat.shiftRight_eq_div_pow, Nat.pow_one]
  case isFalse h =>
    rw [crcRound_of_even _ (hodd.trans (decide_eq_false h)), BitVec.toNat_ushiftRight, Nat.shiftRight_eq_div_pow,
      Nat.pow_one]

/-- CrcStep follows its rounds (R95). -/
theorem crcSteps_crcStep (e : Half) (w : Word) : CrcSteps c e w (crcStep c e w) := by
  refine ⟨fun k => crcRounds c.poly k (e.setWidth 64 ^^^ w), rfl, fun k _ => ?_, ?_⟩
  · exact (congrArg BitVec.toNat (crcRounds_add c.poly k 1 _)).trans (crcRound_toNat c.poly _)
  · rw [crcStep, BitVec.extractLsb'_toNat, Nat.shiftRight_zero]

/-- Settles O59: each function by its own lemma. -/
theorem mixingFunctionsFollowTheirSteps : Obligations.MixingFunctionsFollowTheirSteps :=
  ⟨rot64_toNat, rot32_toNat, foldSteps_fold, weakMixSteps_weakMix,
    fun c => ⟨mur32Steps_mur32 c, fmix32Steps_fmix32 c, crcSteps_crcStep c⟩⟩

/-! ### The command -/

/-- Settles O28: with a CRC step available the command completes. -/
theorem crc64AdvancesRemainder : Obligations.Crc64AdvancesRemainder := by
  intro s hsel
  have havail : ¬ s.crcUnavailable = true := by simpa [State.crcUnavailable] using hsel
  exact ⟨_, if_neg havail, s.complete_one _⟩

end Sys2Proof.Machine

/-!
SUPPORT. The 64-bit core (spec/41_core64.md): Fold in its first operand, the bucket a length chooses and its digest, the packed
word of bucket B1, and the commands H64, H64S, H64SS and H32. The settled statements O33 and O35 to O42.
-/

namespace Sys2Proof.Machine

/-! ### Fold is a bijection in its first operand (R140) -/

/-- Fold by an odd multiplier loses nothing of its first operand: two xors with the second operand, three multiplications and
two ShiftMix. -/
theorem fold_injective_fst {m : Word} (hm : m.toNat % 2 = 1) (v : Word) : Function.Injective fun u => fold u v m :=
  have hxor : Function.Injective fun u => v ^^^ u := fun _ _ => (BitVec.xor_right_inj v).mp
  have hxor' : Function.Injective fun u => u ^^^ v := fun _ _ => (BitVec.xor_left_inj v).mp
  (mulOdd_injective hm).comp <| shiftMix_injective.comp <| (mulOdd_injective hm).comp <| hxor.comp <|
    shiftMix_injective.comp <| (mulOdd_injective hm).comp hxor'

/-- Fold maps two zero operands to 0 (R90). -/
theorem fold_zero_zero (m : Word) : fold 0 0 m = 0 := by simp [fold]

/-- Fold by the multiplier 0 is 0 (R90). -/
theorem fold_mul_zero (u v : Word) : fold u v 0 = 0 := BitVec.mul_zero

/-- Settles O33: Fold by an odd multiplier loses nothing of its first operand. -/
theorem foldIsBijectiveInFirstOperand : Obligations.FoldIsBijectiveInFirstOperand := by
  intro v m
  refine ⟨fun hodd => ?_, fold_zero_zero m, fun u => fold_mul_zero u v⟩
  have hm : m.toNat % 2 = 1 := by simpa [oddWord] using hodd
  exact Finite.injective_iff_bijective.mp (fold_injective_fst hm v)

/-! ### The multiplier and the bucket of a length (R126, R127) -/

section
variable (c : Config) (b : Buffer)

/-- The length-dependent multiplier, over the integers (R126). -/
theorem lengthMul_eq_ofNat : lengthMul c b = BitVec.ofNat 64 (c.k2.toNat + 2 * b.len) := by
  simp [lengthMul, Buffer.lenWord, BitVec.ofNat_add, BitVec.ofNat_mul]

/-- The multiplier has the parity of K2: twice the length is even, and so is 2^64. -/
theorem lengthMul_mod_two : (lengthMul c b).toNat % 2 = c.k2.toNat % 2 := by
  rw [lengthMul_eq_ofNat, BitVec.toNat_ofNat]
  omega

variable {c b} (s0 s1 : Word)

theorem core64_of_len_zero (h : b.len = 0) : core64 c b s0 s1 = coreB0 c b s0 s1 := if_pos h

theorem core64_of_len_le_3 (h1 : 1 ≤ b.len) (h3 : b.len ≤ 3) : core64 c b s0 s1 = coreB1 c b s0 s1 := by
  rw [core64, if_neg (by omega), if_pos h3]

theorem core64_of_len_le_7 (h4 : 4 ≤ b.len) (h7 : b.len ≤ 7) : core64 c b s0 s1 = coreB2 c b s0 s1 := by
  rw [core64, if_neg (by omega), if_neg (by omega), if_pos h7]

theorem core64_of_len_le_16 (h8 : 8 ≤ b.len) (h16 : b.len ≤ 16) : core64 c b s0 s1 = coreB3 c b s0 s1 := by
  rw [core64, if_neg (by omega), if_neg (by omega), if_neg (by omega), if_pos h16]

theorem core64_of_len_le_32 (h17 : 17 ≤ b.len) (h32 : b.len ≤ 32) : core64 c b s0 s1 = coreB4 c b s0 s1 := by
  rw [core64, if_neg (by omega), if_neg (by omega), if_neg (by omega), if_neg (by omega), if_pos h32]

theorem core64_of_len_le_64 (h33 : 33 ≤ b.len) (h64 : b.len ≤ 64) : core64 c b s0 s1 = coreB5 c b s0 s1 := by
  rw [core64, if_neg (by omega), if_neg (by omega), if_neg (by omega), if_neg (by omega), if_neg (by omega), if_pos h64]

theorem core64_of_len_ge_65 (h65 : 65 ≤ b.len) : core64 c b s0 s1 = coreB6 c b s0 s1 := by
  rw [core64, if_neg (by omega), if_neg (by omega), if_neg (by omega), if_neg (by omega), if_neg (by omega),
    if_neg (by omega)]

end

/-- Settles O39: the multiplier has the parity of K2. -/
theorem lengthMultiplierIsOdd : Obligations.LengthMultiplierIsOdd := by
  intro c b hodd
  rw [oddWord, lengthMul_mod_two]
  exact hodd

/-! ### At most 16 bytes (R128 to R131) -/

section
variable (b : Buffer) (o : Nat)

/-- `F32(o)` from memory (R15, R47). -/
theorem Buffer.f32_eq_ofNat : b.f32 o = BitVec.ofNat 64 (memRead b.mem (b.base + o) 4) := by
  rw [← b.f32_toNat, BitVec.ofNat_toNat, BitVec.setWidth_eq]

/-- `B[o]` is below 256. -/
theorem Buffer.byteAt_lt : (b.byteAt o).toNat < 256 := by
  rw [b.byteAt_toNat]
  exact (readByte b.mem (b.base + o)).isLt

/-- The packed word of bucket B1, over the integers (R129). -/
theorem packB1_eq_ofNat : packB1 b = BitVec.ofNat 64 ((b.byteAt 0).toNat + 256 * (b.byteAt (b.len / 2)).toNat
    + 65536 * (b.byteAt (b.len - 1)).toNat + 16777216 * b.len) := by
  simp [packB1, Buffer.lenWord, BitVec.ofNat_add, BitVec.ofNat_mul]

/-- In bucket B1 the sum does not reach 2^64, so the length and the three bytes are its digits in base 256. -/
theorem packB1_digits (hlen : b.len ≤ 3) :
    (packB1 b).toNat / 16777216 = b.len ∧ (packB1 b).toNat % 256 = (b.byteAt 0).toNat
      ∧ (packB1 b).toNat / 256 % 256 = (b.byteAt (b.len / 2)).toNat
      ∧ (packB1 b).toNat / 65536 % 256 = (b.byteAt (b.len - 1)).toNat := by
  have hfirst := b.byteAt_lt 0
  have hmiddle := b.byteAt_lt (b.len / 2)
  have hlast := b.byteAt_lt (b.len - 1)
  rw [packB1_eq_ofNat, BitVec.toNat_ofNat]
  omega

end

/-- Settles O36: each bucket of the core, its words written over the integers. -/
theorem coreShortBuckets : Obligations.CoreShortBuckets := by
  intro c b s0 s1 m byte
  have hm : lengthMul c b = m := lengthMul_eq_ofNat c b
  refine ⟨fun h => ?empty, fun h1 h3 => ?upTo3, fun h4 h7 => ?upTo7, fun h8 h16 => ?upTo16⟩
  case empty =>
    have hk2 : lengthMul c b = c.k2 := by simp [lengthMul, Buffer.lenWord, h]
    rw [core64_of_len_zero s0 s1 h, coreB0, hk2]
  case upTo3 =>
    rw [core64_of_len_le_3 s0 s1 h1 h3, coreB1, hm, packB1_eq_ofNat, b.byteAt_toNat, b.byteAt_toNat, b.byteAt_toNat]
  case upTo7 =>
    rw [core64_of_len_le_7 s0 s1 h4 h7, coreB2, hm]
    simp only [Buffer.f32_eq_ofNat, Buffer.lenWord, Nat.add_zero]
    congr 1
    · apply BitVec.eq_of_toNat_eq
      simp only [BitVec.toNat_add, BitVec.toNat_shiftLeft, BitVec.toNat_ofNat, Nat.shiftLeft_eq]
      omega
    · simp [BitVec.ofNat_add]
  case upTo16 =>
    refine ⟨b.f64 0 + s0, b.f64 (b.len - 8) + s1, ?_, ?_, ?_⟩
    · simp [Buffer.f64, BitVec.ofNat_add]
    · simp [Buffer.f64, BitVec.ofNat_add]
    · rw [core64_of_len_le_16 s0 s1 h8 h16, coreB3, hm]
      simp only [Buffer.lenWord, BitVec.ofNat_add, BitVec.ofNat_mul, BitVec.ofNat_toNat, BitVec.setWidth_eq]

/-- Settles O40: the packed word gives its digits back, and bytes 0, `n div 2` and `n - 1` are all the bytes there are. -/
theorem packedWordIsOneToOne : Obligations.PackedWordIsOneToOne := by
  intro b b' h1 h3 _ h3' hpack
  obtain ⟨hlen, hfirst, hmiddle, hlast⟩ := packB1_digits b h3
  obtain ⟨hlen', hfirst', hmiddle', hlast'⟩ := packB1_digits b' h3'
  rw [← hpack] at hlen' hfirst' hmiddle' hlast'
  have hsame : b'.len = b.len := hlen'.symm.trans hlen
  rw [hsame] at hmiddle' hlast'
  have hbyte : ∀ {i d}, d = (b.byteAt i).toNat → d = (b'.byteAt i).toNat →
      readByte b'.mem (b'.base + i) = readByte b.mem (b.base + i) := fun h h' =>
    BitVec.eq_of_toNat_eq (by rw [← Buffer.byteAt_toNat, ← Buffer.byteAt_toNat, ← h, ← h'])
  refine ⟨hsame, fun i hi => ?_⟩
  obtain rfl | rfl | rfl : i = 0 ∨ i = b.len / 2 ∨ i = b.len - 1 := by omega
  · exact hbyte hfirst hfirst'
  · exact hbyte hmiddle hmiddle'
  · exact hbyte hlast hlast'

/-! ### 17 to 64 bytes (R132, R134, R135) -/

/-- Settles O37: the strides of buckets B4 and B5 are the fold over their offsets. -/
theorem coreMiddleBuckets : Obligations.CoreMiddleBuckets := by
  intro c b s0 s1 h17 h64
  refine ⟨_, rfl, ?_⟩
  rw [← lengthMul_eq_ofNat]
  split
  case isTrue h32 => exact core64_of_len_le_32 s0 s1 h17 h32
  case isFalse h32 => exact core64_of_len_le_64 s0 s1 (by omega) h64

/-! ### 65 bytes and more (R136 to R139) -/

section
variable (c : Config) (b : Buffer)

/-- The strides end with the one at the last offset (R138). -/
theorem longStrides_succ (k pos : Nat) (t : LongAcc) :
    longStrides c b (k + 1) pos t = longStride c b (longStrides c b k pos t) (pos + 64 * k) := by
  induction k generalizing pos t with
  | zero => rfl
  | succ k ih =>
    rw [longStrides, ih, longStrides]
    congr 1
    omega

/-- The accumulators before stride `k` (R136). -/
def longAccs (s0 s1 : Word) (k : Nat) : LongAcc := longStrides c b k 0 (longInit c b s0 s1)

/-- Stride `k` is the one at offset `64 * k` (R138). -/
theorem longAccs_succ (s0 s1 : Word) (k : Nat) :
    longAccs c b s0 s1 (k + 1) = longStride c b (longAccs c b s0 s1 k) (64 * k) := by
  rw [longAccs, longStrides_succ, Nat.zero_add, longAccs]

end

/-- Settles O38: the sequences are those of `longAccs`, from the initialisation to the reduction. -/
theorem coreLongBucket : Obligations.CoreLongBucket := by
  intro c b s0 s1 h65
  refine ⟨fun k => (longAccs c b s0 s1 k).x, fun k => (longAccs c b s0 s1 k).y, fun k => (longAccs c b s0 s1 k).z,
    fun k => (longAccs c b s0 s1 k).v.1, fun k => (longAccs c b s0 s1 k).v.2, fun k => (longAccs c b s0 s1 k).w.1,
    fun k => (longAccs c b s0 s1 k).w.2, ⟨rfl, rfl, rfl, rfl, rfl⟩, fun k _ => ?stride, core64_of_len_ge_65 s0 s1 h65⟩
  case stride =>
    simp only [longAccs_succ]
    exact ⟨rfl, rfl, rfl, rfl, rfl⟩

/-! ### The commands (R143 to R149) -/

section
variable {s : State} (hfits : s.bufferFits)
include hfits

/-- A buffer that fits raises no error (R197). -/
theorem State.bufferCheck_passes : ¬ s.bufferCheckFails = true := by simp [State.bufferCheckFails_of_fits hfits]

/-- H64 on a buffer that fits (R143). -/
theorem exec_h64_of_fits : exec .h64 s =
    .next (s.complete (.one (core64 s.cfg s.buffer s.cfg.ds64x0 s.cfg.ds64x1))) :=
  if_neg (State.bufferCheck_passes hfits)

/-- H64S on a buffer that fits (R145). -/
theorem exec_h64s_of_fits : exec .h64s s =
    .next (s.complete (.one (core64 s.cfg s.buffer s.eng.seed0 s.cfg.ds64x1))) :=
  if_neg (State.bufferCheck_passes hfits)

/-- H64SS on a buffer that fits (R147). -/
theorem exec_h64ss_of_fits : exec .h64ss s =
    .next (s.complete (.one (core64 s.cfg s.buffer s.eng.seed0 s.eng.seed1))) :=
  if_neg (State.bufferCheck_passes hfits)

/-- H32 on a buffer that fits (R149). -/
theorem exec_h32_of_fits : exec .h32 s =
    .next (s.complete (.one (reduce32 s.cfg (core64 s.cfg s.buffer s.cfg.ds64x0 s.cfg.ds64x1)))) :=
  if_neg (State.bufferCheck_passes hfits)

end

/-- Settles O35: each command completes with one word; Mur32 and Fmix32 of H32 follow their steps. -/
theorem coreDigestCommands : Obligations.CoreDigestCommands := fun s hfits =>
  ⟨⟨_, exec_h64_of_fits hfits, s.complete_one _⟩, ⟨_, exec_h64s_of_fits hfits, s.complete_one _⟩,
    ⟨_, exec_h64ss_of_fits hfits, s.complete_one _⟩,
    ⟨_, _, _, _, exec_h32_of_fits hfits, rfl, mur32Steps_mur32 .., fmix32Steps_fmix32 .., s.complete_one _⟩⟩

/-- Settles O41: with the default seeds in place H64SS completes with the result word of the other command. -/
theorem defaultSeedsReplaceCallerSeeds : Obligations.DefaultSeedsReplaceCallerSeeds := fun _ hfits =>
  ⟨⟨_, _, exec_h64_of_fits hfits, exec_h64ss_of_fits hfits, rfl, rfl, rfl, rfl, rfl⟩,
    ⟨_, _, exec_h64s_of_fits hfits, exec_h64ss_of_fits hfits, rfl, rfl, rfl, rfl, rfl⟩⟩

/-! ### Different first seeds (R140) -/

/-- On at most 7 bytes the first seed enters the first operand of Fold by additions alone. -/
theorem core64_injective_seed0 {c : Config} (hk2 : c.k2.toNat % 2 = 1) {b : Buffer} (hlen : b.len ≤ 7) (s1 : Word) :
    Function.Injective fun s0 => core64 c b s0 s1 := by
  have hfold := fold_injective_fst ((lengthMul_mod_two c b).trans hk2)
  intro s0 s0' (h : core64 c b s0 s1 = core64 c b s0' s1)
  obtain h0 | ⟨h1, h3⟩ | h4 : b.len = 0 ∨ (1 ≤ b.len ∧ b.len ≤ 3) ∨ 4 ≤ b.len := by omega
  · rw [core64_of_len_zero _ _ h0, core64_of_len_zero _ _ h0] at h
    exact hfold s1 h
  · rw [core64_of_len_le_3 _ _ h1 h3, core64_of_len_le_3 _ _ h1 h3] at h
    exact (BitVec.add_left_inj _).mp (hfold s1 h)
  · rw [core64_of_len_le_7 _ _ h4 hlen, core64_of_len_le_7 _ _ h4 hlen] at h
    exact (BitVec.add_left_inj _).mp ((BitVec.add_left_inj _).mp (hfold _ h))

/-- Settles O42: the digest, injective in the first seed, is D0. -/
theorem shortDigestsSeparateFirstSeeds : Obligations.ShortDigestsSeparateFirstSeeds := by
  intro s a hodd hfits hlen hne
  have hk2 : s.cfg.k2.toNat % 2 = 1 := by simpa [oddWord] using hodd
  have hdigest : ∀ s1, core64 s.cfg s.buffer s.eng.seed0 s1 ≠ core64 s.cfg s.buffer a s1 := fun s1 h =>
    hne (core64_injective_seed0 hk2 hlen s1 h).symm
  exact ⟨⟨_, _, exec_h64ss_of_fits hfits, exec_h64ss_of_fits hfits, hdigest _⟩,
    ⟨_, _, exec_h64s_of_fits hfits, exec_h64s_of_fits hfits, hdigest _⟩⟩

end Sys2Proof.Machine

/-!
SUPPORT. The wide combiners (spec/42_wide.md): the seed pairs of the two lanes of Core128, the interleave of H256 and its inverse,
the lanes of H256 stride by stride, and the commands H128, H128S and H256. The settled statements O43 to O46.
-/

namespace Sys2Proof.Machine

/-! ### The lanes of Core128 (R155 to R157) -/

/-- The seed pair of lane 1 is that of lane 0 only if K0 and K1 are equal: both are then the xor of the two seeds (R156). -/
theorem k0_eq_k1_of_lane1Seeds_eq {c : Config} {s0 s1 : Word} (h : lane1Seeds c s0 s1 = (s0, s1)) : c.k0 = c.k1 := by
  obtain ⟨rfl, hsnd⟩ := Prod.mk.inj h
  calc c.k0 = s1 ^^^ (s1 ^^^ c.k0) := by simp
    _ = (s1 ^^^ c.k0 ^^^ c.k1) ^^^ (s1 ^^^ c.k0) := by rw [hsnd]
    _ = c.k1 := by simp [BitVec.xor_comm]

/-- Settles O44: Core128 is the cross-mix by definition, and equal seed pairs force K0 = K1. -/
theorem laneSeedPairsDiffer : Obligations.LaneSeedPairsDiffer := fun _ _ _ _ =>
  ⟨rfl, rfl, mt k0_eq_k1_of_lane1Seeds_eq⟩

/-! ### The interleave of H256 (R168) -/

/-- Undoes the interleave: the last assignment first, each with the accumulator that its assignment read. -/
def lanesDeinterleave (t : Lanes) : Lanes :=
  let a3 := t.a3 ^^^ rot64 t.a0 43
  let a2 := t.a2 ^^^ rot64 a3 33
  let a1 := t.a1 ^^^ rot64 a2 42
  let a0 := t.a0 ^^^ rot64 a1 37
  { a0 := a0, a1 := a1, a2 := a2, a3 := a3 }

theorem lanesDeinterleave_lanesInterleave : Function.LeftInverse lanesDeinterleave lanesInterleave := fun t => by
  simp [lanesDeinterleave, lanesInterleave]

theorem lanesInterleave_lanesDeinterleave : Function.RightInverse lanesDeinterleave lanesInterleave := fun t => by
  simp [lanesDeinterleave, lanesInterleave]

/-- Settles O46: the interleave has a two-sided inverse. -/
theorem interleaveIsBijective : Obligations.InterleaveIsBijective :=
  Function.bijective_iff_has_inverse.mpr
    ⟨lanesDeinterleave, lanesDeinterleave_lanesInterleave, lanesInterleave_lanesDeinterleave⟩

/-! ### The strides of H256 (R163 to R168) -/

section
variable (c : Config) (b : Buffer)

/-- The strides end with the last one (R165). -/
theorem lanesStrides_succ (left k : Nat) (t : Lanes) : lanesStrides c b (left + 1) k t =
    lanesInterleave (lanesAbsorb c b (lanesStrides c b left k t) (min (32 * (k + left)) (b.len - 32))) := by
  induction left generalizing k t with
  | zero => rfl
  | succ left ih => rw [lanesStrides, ih, lanesStrides, Nat.add_right_comm, Nat.add_assoc]

/-- The accumulators before stride `k`, on both paths: the short path (R164) has no stride. -/
def lanesBefore (k : Nat) : Lanes := lanesStrides c b k 0 (if b.len < 32 then lanesShort c b else lanesInit c b)

/-- How many strides there are on both paths (R165). -/
def laneStrideCount : Nat := if b.len < 32 then 0 else (b.len + 31) / 32

/-- Stride `k` is the one at offset `min(32k, n - 32)` (R165). -/
theorem lanesBefore_succ (k : Nat) : lanesBefore c b (k + 1) =
    lanesInterleave (lanesAbsorb c b (lanesBefore c b k) (min (32 * k) (b.len - 32))) := by
  rw [lanesBefore, lanesStrides_succ, Nat.zero_add, lanesBefore]

/-- The accumulators that the finalisation takes are those after the last stride. -/
theorem lanesOf_eq_lanesBefore : lanesOf c b = lanesBefore c b (laneStrideCount b) := by
  rw [lanesOf, lanesBefore, laneStrideCount]
  split
  case isTrue => rfl
  case isFalse => rfl

variable {c b}

theorem lanesBefore_zero_of_lt (h : b.len < 32) : lanesBefore c b 0 = lanesShort c b := if_pos h

theorem lanesBefore_zero_of_ge (h : 32 ≤ b.len) : lanesBefore c b 0 = lanesInit c b := if_neg (Nat.not_lt.mpr h)

end

/-! ### The commands (R160, R162, R170) -/

section
variable {s : State} (hfits : s.bufferFits)
include hfits

/-- H128 on a buffer that fits (R160). -/
theorem exec_h128_of_fits : exec .h128 s =
    .next (s.complete (.two (core128 s.cfg s.buffer s.cfg.ds128x0 s.cfg.ds128x1).1
      (core128 s.cfg s.buffer s.cfg.ds128x0 s.cfg.ds128x1).2)) :=
  if_neg (State.bufferCheck_passes hfits)

/-- H128S on a buffer that fits (R162). -/
theorem exec_h128s_of_fits : exec .h128s s =
    .next (s.complete (.two (core128 s.cfg s.buffer s.eng.seed0 s.eng.seed1).1
      (core128 s.cfg s.buffer s.eng.seed0 s.eng.seed1).2)) :=
  if_neg (State.bufferCheck_passes hfits)

/-- H256 on a buffer that fits: the finalisation of the accumulators after the last stride (R170). -/
theorem exec_h256_of_fits {d : Lanes}
    (hd : d = lanesFinal s.cfg (lanesBefore s.cfg s.buffer (laneStrideCount s.buffer))) :
    exec .h256 s = .next (s.complete (.four d.a0 d.a1 d.a2 d.a3)) := by
  rw [hd, ← lanesOf_eq_lanesBefore]
  exact if_neg (State.bufferCheck_passes hfits)

end

/-- Settles O43: both commands complete with the cross-mix of the two lanes, which is two Folds. -/
theorem wideDigestCommands : Obligations.WideDigestCommands := fun s hfits =>
  ⟨⟨_, _, _, _, _, exec_h128_of_fits hfits, s.complete_two _ _, rfl, rfl, foldSteps_fold .., foldSteps_fold ..⟩,
    ⟨_, _, _, _, _, exec_h128s_of_fits hfits, s.complete_two _ _, rfl, rfl, foldSteps_fold .., foldSteps_fold ..⟩⟩

/-- Settles O45: the sequences are those of `lanesBefore`, from the first accumulators of either path to the finalisation. -/
theorem h256FourLanes : Obligations.H256FourLanes := by
  intro s hfits
  refine ⟨_, fun k => (lanesBefore s.cfg s.buffer k).a0, fun k => (lanesBefore s.cfg s.buffer k).a1,
    fun k => (lanesBefore s.cfg s.buffer k).a2, fun k => (lanesBefore s.cfg s.buffer k).a3, laneStrideCount s.buffer, _,
    ⟨fun hshort => ?short, fun hlong => ?long, rfl⟩, exec_h256_of_fits hfits rfl, s.complete_four _ _ _ _⟩
  case short =>
    simp only [lanesBefore_zero_of_lt (b := s.buffer) hshort]
    exact ⟨if_pos hshort, rfl, rfl, rfl, rfl⟩
  case long =>
    simp only [lanesBefore_zero_of_ge (b := s.buffer) hlong, lanesBefore_succ]
    exact ⟨if_neg (Nat.not_lt.mpr hlong), rfl, rfl, rfl, rfl, fun _ _ => ⟨rfl, rfl, rfl, rfl⟩⟩

end Sys2Proof.Machine

/-!
SUPPORT. The latch and the straps through one host operation (spec/43_crc.md R187, spec/70_reset_and_hazards.md R226). The settled
statement O15.
-/

namespace Sys2Proof.Machine

/-- A register transaction changes no latch: none of its own engine, and no register of another (R187). -/
theorem State.Transaction.caps_eq {s t : State} {j : Nat} {e : Engine} (h : s.Transaction t j e) :
    t.engines.map Engine.cap = s.engines.map Engine.cap := by
  apply List.ext_getElem?
  intro k
  rw [h.engines, List.map_set, List.getElem?_set, h.after.cap_eq]
  split
  case isTrue hjk =>
    obtain ⟨hj, hbefore⟩ := List.getElem?_eq_some_iff.mp h.before
    simp [← hjk, hj, hbefore]
  case isFalse => rfl

/-- No operation but reset changes a latch. -/
theorem State.HostEffect.caps_eq {s t : State} {op : HostOp} (h : s.HostEffect op t) (hop : op.isReset = false) :
    t.engines.map Engine.cap = s.engines.map Engine.cap := by
  cases h with
  | read _ htrans => exact htrans.caps_eq
  | write _ htrans => exact htrans.caps_eq
  | store => rfl
  | straps => rfl
  | reset hreset => simp [hreset] at hop

/-- No operation but a change of the straps changes them. -/
theorem State.HostEffect.pins_eq {s t : State} {op : HostOp} (h : s.HostEffect op t) (hop : ∀ p, op ≠ .straps p) :
    t.pins = s.pins := by
  cases h with
  | read _ htrans => exact htrans.pins
  | write _ htrans => exact htrans.pins
  | store => rfl
  | straps p => exact absurd rfl (hop p)
  | reset => rfl

/-- Settles O15: what the operation of the step does to the latches and to the straps. -/
theorem latchChangesOnlyAtReset : Obligations.LatchChangesOnlyAtReset := by
  intro s op rest hq
  refine ⟨fun t hstep => ?next, ?straps⟩
  case next =>
    have heffect := step_hostEffect hq hstep
    exact ⟨heffect.caps_eq, fun hop e he => by rw [heffect.atReset hop e he]; rfl, heffect.pins_eq⟩
  case straps =>
    rintro p rfl
    exact ⟨_, step_cons hq, rfl, rfl, rfl, rfl, rfl, rfl⟩

end Sys2Proof.Machine

/-!
SUPPORT. The CRC path (spec/43_crc.md): H128C half-stride by half-stride, the CRC commands where a CRC step is available, and the
capability query. The settled statements O47 to O50.
-/

namespace Sys2Proof.Machine

/-! ### The half-strides of H128C (R179, R180) -/

section
variable (c : Config) (b : Buffer)

/-- The remainder before CrcStep `j` of the half-stride at the offset `o`: each takes that of the one before (R180). -/
def crcRemainder (e : Half) (o : Nat) : Nat → Half
  | 0 => e
  | j + 1 => crcStep c (crcRemainder e o j) (b.f64 (o + 8 * j))

/-- The data word `j` of the half-stride with the remainder of its CrcStep in the upper half (R180). -/
def crcDataWord (e : Half) (o j : Nat) : Word := crcQ (b.f64 (o + 8 * j)) (crcRemainder c b e o (j + 1))

/-- The four data words of a half-stride, mixed with the accumulators (R180). -/
def crcMix (t : CrcAcc) (o : Nat) : Word × Word :=
  weakMix (crcDataWord c b t.e o 0) (crcDataWord c b t.e o 1) (crcDataWord c b t.e o 2) (crcDataWord c b t.e o 3) t.a t.b

/-- A half-stride is four CrcStep in sequence, one WeakMix and two Fold2 (R180). -/
theorem crcHalf_eq_mix (t : CrcAcc) (o : Nat) : crcHalf c b t o =
    { a := fold2 c (crcMix c b t o).1 (crcMix c b t o).2
      b := fold2 c (crcMix c b t o).2 (fold2 c (crcMix c b t o).1 (crcMix c b t o).2)
      e := crcRemainder c b t.e o 4 } := rfl

/-- The offset of half-stride `h`: stride `h / 2` is at `min(64k, n - 64)`, its second half 32 bytes on (R179). -/
def crcHalfOffset (h : Nat) : Nat := min (64 * (h / 2)) (b.len - 64) + 32 * (h % 2)

theorem crcHalfOffset_even (k : Nat) : crcHalfOffset b (2 * k) = min (64 * k) (b.len - 64) := by
  simp [crcHalfOffset]

theorem crcHalfOffset_odd (k : Nat) : crcHalfOffset b (2 * k + 1) = min (64 * k) (b.len - 64) + 32 := by
  rw [crcHalfOffset, show (2 * k + 1) / 2 = k by omega, show (2 * k + 1) % 2 = 1 by omega]

/-- The accumulators before half-stride `h`. -/
def crcBefore : Nat → CrcAcc
  | 0 => crcInit c b
  | h + 1 => crcHalf c b (crcBefore h) (crcHalfOffset b h)

/-- A stride is two half-strides (R179). -/
theorem crcBefore_stride (k : Nat) : crcBefore c b (2 * (k + 1)) =
    crcHalf c b (crcHalf c b (crcBefore c b (2 * k)) (min (64 * k) (b.len - 64))) (min (64 * k) (b.len - 64) + 32) := by
  rw [← crcHalfOffset_odd, ← crcHalfOffset_even]
  rfl

/-- The strides from number `k` on are the half-strides from number `2k` on. -/
theorem crcStrides_crcBefore (left k : Nat) :
    crcStrides c b left k (crcBefore c b (2 * k)) = crcBefore c b (2 * (k + left)) := by
  induction left generalizing k with
  | zero => rfl
  | succ left ih => rw [crcStrides, ← crcBefore_stride, ih, Nat.add_right_comm, Nat.add_assoc]

/-- The CRC path finalises the accumulators after the last half-stride (R181). -/
theorem crcLong_eq : crcLong c b = crcFinal c b (crcBefore c b (2 * ((b.len + 63) / 64))) := by
  have hwalk := crcStrides_crcBefore c b ((b.len + 63) / 64) 0
  rw [Nat.zero_add] at hwalk
  rw [crcLong, ← hwalk]
  rfl

variable {c b}

/-- Below 64 bytes the H128C digest is that of H128 (R178). -/
theorem crcDigest_of_lt (h : b.len < 64) : crcDigest c b = core128 c b c.ds128x0 c.ds128x1 := if_pos h

/-- From 64 bytes on the H128C digest is that of the half-strides (R179). -/
theorem crcDigest_of_ge (h : 64 ≤ b.len) :
    crcDigest c b = crcFinal c b (crcBefore c b (2 * ((b.len + 63) / 64))) :=
  (if_neg (Nat.not_lt.mpr h)).trans (crcLong_eq c b)

end

/-- The length of the command's buffer, as a word, is the register LEN (R13). -/
theorem State.lenWord_buffer (s : State) : s.buffer.lenWord = s.eng.len := by
  simp [State.buffer, Buffer.lenWord]

/-! ### The commands where a CRC step is available (R177, R182) -/

section
variable {s : State} (hsel : capCrcsel s.eng.cap ≠ 0)
include hsel

/-- A latch that is not NONE raises no error (R201). -/
theorem State.crcCheck_passes : ¬ s.crcUnavailable = true := by simpa [State.crcUnavailable] using hsel

/-- With a CRC step available only the buffer check of H128C can fail (R182). -/
theorem exec_h128c_of_available : exec .h128c s =
    if s.bufferCheckFails then .next (s.raise .invalidArgument)
    else .next (s.complete (.two (crcDigest s.cfg s.buffer).1 (crcDigest s.cfg s.buffer).2)) :=
  if_neg (State.crcCheck_passes hsel)

/-- With a CRC step available CRC64 completes (R117). -/
theorem exec_crc64_of_available : exec .crc64 s =
    .next (s.complete (.one (zext64 (crcStep s.cfg (lowHalf s.eng.x0) s.eng.x1)))) :=
  if_neg (State.crcCheck_passes hsel)

/-- H128C on a buffer that fits, with a CRC step available. -/
theorem exec_h128c_of_fits (hfits : s.bufferFits) {d : Word × Word} (hd : crcDigest s.cfg s.buffer = d) :
    exec .h128c s = .next (s.complete (.two d.1 d.2)) := by
  rw [exec_h128c_of_available hsel, if_neg (State.bufferCheck_passes hfits), hd]

end

/-- Settles O48: the sequences are those of `crcBefore`, from the initialisation to the finalisation. -/
theorem longH128cWalksCrcStrides : Obligations.LongH128cWalksCrcStrides := by
  intro s hsel hfits hlen
  have hexec := exec_h128c_of_fits hsel hfits (crcDigest_of_ge (b := s.buffer) hlen)
  rw [crcFinal, State.lenWord_buffer] at hexec
  refine ⟨_, fun h => (crcBefore s.cfg s.buffer h).a, fun h => (crcBefore s.cfg s.buffer h).b,
    fun h => (crcBefore s.cfg s.buffer h).e, _, _, ⟨rfl, rfl, rfl, fun h _ => ?half, rfl, rfl⟩, hexec, s.complete_two _ _⟩
  case half =>
    simp only [crcBefore, crcHalf_eq_mix]
    exact ⟨fun j => crcDataWord s.cfg s.buffer _ (crcHalfOffset s.buffer h) j,
      fun j => crcRemainder s.cfg s.buffer _ (crcHalfOffset s.buffer h) j, crcMix s.cfg s.buffer _ _,
      rfl, fun j => ⟨rfl, rfl⟩, rfl, rfl, rfl, rfl⟩

/-- Settles O47: below 64 bytes both commands complete with the two words of Core128. -/
theorem shortH128cIsH128 : Obligations.ShortH128cIsH128 := fun s hsel hfits hlen =>
  ⟨_, _, _, exec_h128c_of_fits hsel hfits (crcDigest_of_lt (b := s.buffer) hlen), exec_h128_of_fits hfits, s.complete_two _ _⟩

/-- Settles O49: past the capability check neither command reads the latch, so the two runs end alike. -/
theorem crcPathsAgree : Obligations.CrcPathsAgree := by
  intro s cap i hi hsel hcap
  have hsel' : capCrcsel { s with eng := { s.eng with cap := cap } }.eng.cap ≠ 0 := hcap
  have halike : s.EndAlike { s with eng := { s.eng with cap := cap } } (exec i s)
      (exec i { s with eng := { s.eng with cap := cap } }) := by
    rcases hi with rfl | rfl
    · rw [exec_h128c_of_available hsel, exec_h128c_of_available hsel']
      exact State.EndAlike.raise_if Iff.rfl fun _ => .complete _
    · rw [exec_crc64_of_available hsel, exec_crc64_of_available hsel']
      exact .complete _
  exact halike.sameResult rfl

/-! ### The capability query (R185) -/

/-- Settles O50: CAPQ makes no check. -/
theorem capqReturnsHwcrc : Obligations.CapqReturnsHwcrc := by
  intro s
  have hword : (BitVec.ofBool (capHwcrc s.eng.cap)).setWidth 64 = if capHwcrc s.eng.cap then (1 : Word) else 0 := by
    cases capHwcrc s.eng.cap <;> rfl
  exact ⟨_, rfl, hword ▸ s.complete_one _⟩

end Sys2Proof.Machine

/-!
SUPPORT. One register transaction as the rest of the machine sees it (spec/60_exceptions.md R214, R217): it reaches one engine, and
what it does there depends on that engine, the parameters and memory alone. The settled statements O6, O56 and O57.
-/

namespace Sys2Proof.Machine

/-- Settles O6, by `step_idle`. -/
theorem idleStepChangesNothing : Obligations.IdleStepChangesNothing := fun _ => step_idle

/-! ### The other engines -/

/-- A step at a register access that answers a next state is a transaction with the engine whose block the address is in. -/
theorem step_transaction {s t : State} {a j off size : Nat} {v : Word} {rest : List HostOp} {op : HostOp}
    (hop : op = .rd a size ∨ op = .wr a size v) (hq : s.queue = op :: rest) (hl : Config.locate s.cfg a = some (j, off))
    (hstep : step s = .next t) : ∃ e, State.Transaction { s with queue := rest } t j e := by
  have heffect := step_hostEffect hq hstep
  rcases hop with rfl | rfl
  · cases heffect with
    | read hl' htrans =>
      obtain ⟨rfl, -⟩ : j = _ ∧ off = _ := by simpa using hl.symm.trans hl'
      exact ⟨_, htrans⟩
    | reset hreset => simp [HostOp.isReset] at hreset
  · cases heffect with
    | write hl' htrans =>
      obtain ⟨rfl, -⟩ : j = _ ∧ off = _ := by simpa using hl.symm.trans hl'
      exact ⟨_, htrans⟩
    | reset hreset => simp [HostOp.isReset] at hreset

/-- Settles O56: the transaction replaces entry `j` of the list of the engines and keeps memory. -/
theorem otherEnginesAreUntouched : Obligations.OtherEnginesAreUntouched := by
  intro s t a j k off size v rest op hop hq hl hkj hstep
  obtain ⟨e, htrans⟩ := step_transaction hop hq hl hstep
  exact ⟨by rw [htrans.engines, List.getElem?_set_ne hkj.symm]; rfl, htrans.mem⟩

/-! ### A write depends on the engine it addresses -/

/-- Engines, parameters and memory that agree are the same inputs to the next command. -/
theorem State.sameInputs_of_eq {s t : State} (hcfg : t.cfg = s.cfg) (hmem : t.mem = s.mem) (heng : t.eng = s.eng) :
    s.SameInputs t where
  cfg := hcfg
  operands := by rw [heng]; constructor <;> rfl
  serr := by rw [heng]
  bytes _ _ := by rw [hmem]

/-- A value written to CMD ends alike in two states with the same inputs. -/
theorem State.issue_endAlike {s t : State} (h : s.SameInputs t) (v : Word) : s.EndAlike t (s.issue v) (t.issue v) := by
  cases hdecode : decode v with
  | command i =>
    rw [State.issue_of_command hdecode, State.issue_of_command hdecode]
    exact exec_endAlike (h.sameReads i)
  | illegal e =>
    rw [State.issue_of_illegal hdecode, State.issue_of_illegal hdecode]
    exact .raise _

/-- Commands that end alike leave equal register files in engines that were equal. -/
theorem State.EndAlike.eng_eq {s t : State} {o p : Host.Outcome State Fault Refusal} (h : s.EndAlike t o p)
    (heng : t.eng = s.eng) : ∃ s' t', o = .next s' ∧ p = .next t' ∧ t'.eng = s'.eng := by
  cases h with
  | complete r => exact ⟨_, _, rfl, rfl, congrArg (Engine.complete r) heng⟩
  | raise x => exact ⟨_, _, rfl, rfl, congrArg (Engine.fail x) heng⟩

/-- The outcome of a write of `v` to the register at `off` of the foreground engine: a command at CMD, else a register write. -/
def State.registerWrite (s : State) (off : Nat) (v : Word) : Host.Outcome State Fault Refusal :=
  if off = 0 then s.issue v else .next { s with eng := s.eng.writeReg off v }

/-- The step at a whole register write to an existing engine is that write in the state that has accepted it (R58). -/
theorem step_registerWrite {s : State} {a j off : Nat} {v : Word} {rest : List HostOp}
    (hq : s.queue = .wr a 8 v :: rest) (hl : Config.locate s.cfg a = some (j, off)) (ha : off % 8 = 0)
    (hj : j < s.engines.length) : ∃ t, s.Accepts j rest .done t ∧ step s = t.registerWrite off v := by
  obtain ⟨u, hfocus, htarget⟩ := State.target_of_locate rest hl ha hj
  refine ⟨{ u with reply := .done }, State.accepts_of_focus hfocus .done, ?_⟩
  rw [step_cons hq, State.hostOp, State.registerWrite]
  split
  case isTrue hcmd => subst hcmd; exact State.hostWrite_cmd htarget v
  case isFalse hreg => exact State.hostWrite_register htarget hreg v

/-- A register write does the same to equal engines, with the same parameters and memory, whatever else differs. -/
theorem State.registerWrite_eng_eq {s t : State} (hcfg : t.cfg = s.cfg) (hmem : t.mem = s.mem) (heng : t.eng = s.eng)
    (off : Nat) (v : Word) :
    ∃ s' t', s.registerWrite off v = .next s' ∧ t.registerWrite off v = .next t' ∧ t'.eng = s'.eng := by
  unfold State.registerWrite
  split
  · exact (State.issue_endAlike (State.sameInputs_of_eq hcfg hmem heng) v).eng_eq heng
  · exact ⟨_, _, rfl, rfl, congrArg (Engine.writeReg · off v) heng⟩

/-- A register write answers a next state, a command included. -/
theorem State.registerWrite_next (s : State) (off : Nat) (v : Word) : ∃ t, s.registerWrite off v = .next t := by
  obtain ⟨t, -, ht, -⟩ := s.registerWrite_eng_eq rfl rfl rfl off v
  exact ⟨t, ht⟩

/-- A write of `v` at the host address `a` turns engine `j` into `f` and changes no other engine, in every state with the
parameters and the memory of `s` and with its engine `j`: the other engines, the straps and the reply have no effect. -/
def State.WriteEffect (s : State) (a j : Nat) (v : Word) (f : Engine) : Prop :=
  ∀ (t : State) (rest : List HostOp), t.cfg = s.cfg → t.mem = s.mem → t.engines[j]? = s.engines[j]? →
    t.queue = .wr a 8 v :: rest →
    ∃ u, step t = .next u ∧ u.engines = t.engines.set j f ∧ u.queue = rest ∧ u.mem = s.mem ∧ u.cfg = s.cfg

/-- A whole register write to an existing engine has such an effect. -/
theorem State.exists_writeEffect {s : State} {a j off : Nat} (v : Word) (hl : Config.locate s.cfg a = some (j, off))
    (ha : off % 8 = 0) (hj : j < s.engines.length) : ∃ f, s.WriteEffect a j v f := by
  obtain ⟨s₁, haccepts₁, -⟩ := step_registerWrite (s := { s with queue := [.wr a 8 v] }) rfl hl ha hj
  obtain ⟨s₂, hwrite₁⟩ := s₁.registerWrite_next off v
  refine ⟨s₂.eng, fun t rest hcfg hmem heng hq => ?_⟩
  have hjengine : t.engines[j]? = some s₁.eng := heng.trans haccepts₁.eng
  obtain ⟨hjt, -⟩ := List.getElem?_eq_some_iff.mp hjengine
  obtain ⟨t₁, haccepts, hstep⟩ := step_registerWrite hq (hcfg ▸ hl) ha hjt
  obtain ⟨s', u, hs', hu, heq⟩ := State.registerWrite_eng_eq (s := s₁) (t := t₁)
    (haccepts.cfg.trans (hcfg.trans haccepts₁.cfg.symm)) (haccepts.mem.trans (hmem.trans haccepts₁.mem.symm))
    (Option.some.inj (haccepts.eng.symm.trans hjengine)) off v
  obtain rfl : s₂ = s' := by simpa [hwrite₁] using hs'
  rw [hu] at hstep
  obtain ⟨_, htrans⟩ := step_transaction (.inr rfl) hq (hcfg ▸ hl) hstep
  exact ⟨u, hstep, heq ▸ htrans.engines, htrans.queue, htrans.mem.trans hmem, htrans.cfg.trans hcfg⟩

/-- Two writes with effects on different engines have both, one after the other. -/
theorem State.WriteEffect.step_step {s t : State} {a b j k : Nat} {v w : Word} {f g : Engine} {rest : List HostOp}
    (hf : s.WriteEffect a j v f) (hg : s.WriteEffect b k w g) (hjk : j ≠ k) (hcfg : t.cfg = s.cfg) (hmem : t.mem = s.mem)
    (hengines : t.engines = s.engines) (hq : t.queue = .wr a 8 v :: .wr b 8 w :: rest) :
    ∃ u u', step t = .next u ∧ step u = .next u' ∧ u'.engines = (s.engines.set j f).set k g ∧ u'.mem = s.mem := by
  obtain ⟨u, hstep, huengines, huq, humem, hucfg⟩ := hf t _ hcfg hmem (by rw [hengines]) hq
  rw [hengines] at huengines
  obtain ⟨u', hstep', huengines', -, humem', -⟩ := hg u rest hucfg humem (by rw [huengines, List.getElem?_set_ne hjk]) huq
  exact ⟨u, u', hstep, hstep', huengines' ▸ huengines ▸ rfl, humem'⟩

/-- Settles O57: each write has the same effect first and second, and the two replace different entries. -/
theorem differentEnginesCommute : Obligations.DifferentEnginesCommute := by
  intro s a b j k o p v w rest hla hlb hjk ho hp hj hk
  obtain ⟨f, hf⟩ := State.exists_writeEffect v hla ho hj
  obtain ⟨g, hg⟩ := State.exists_writeEffect w hlb hp hk
  obtain ⟨t, t', ht, ht', hengines, hmem⟩ := hf.step_step hg hjk
    (t := { s with queue := .wr a 8 v :: .wr b 8 w :: rest }) rfl rfl rfl rfl
  obtain ⟨u, u', hu, hu', hengines', hmem'⟩ := hg.step_step hf hjk.symm
    (t := { s with queue := .wr b 8 w :: .wr a 8 v :: rest }) rfl rfl rfl rfl
  refine ⟨t, t', u, u', ht, ht', hu, hu', ?_, hmem.trans hmem'.symm, hmem⟩
  rw [hengines, hengines', List.set_comm _ _ hjk]

end Sys2Proof.Machine

/-!
SUPPORT. The error a command ends with (spec/60_exceptions.md R197 to R203): the checks of every command in the order of R203, and
the legal values of CMD as the values of the commands. The settled statements O18, O19 and O20.
-/

namespace Sys2Proof.Machine

/-! ### The first error of a command -/

/-- The offset check of R198 fails: FETCH32, FETCH64 and WMIX are the commands that make one (R106). -/
def State.readsPastBuffer (s : State) : Instr → Bool
  | .fetch32 => s.offsetCheckFails s.eng.x0 4
  | .fetch64 => s.offsetCheckFails s.eng.x0 8
  | .wmix => s.offsetCheckFails s.eng.x2 32
  | _ => false

/-- The error of a command: the first that holds in the order of R203. -/
def State.firstError (s : State) (i : Instr) : Option CmdError :=
  if i.wellFormed = false then some .illegalCommand
  else if (i = .h128c ∨ i = .crc64) ∧ s.crcUnavailable then some .capabilityUnavailable
  else if i ∈ readsBuffer ∧ s.bufferCheckFails then some .invalidArgument
  else if s.readsPastBuffer i then some .invalidArgument
  else none

/-- The outcome of a command with the given error: a completion when there is none. -/
inductive State.EndsWith (s : State) : Option CmdError → Host.Outcome State Fault Refusal → Prop
  | complete (r : ResultWords) : s.EndsWith none (.next (s.complete r))
  | raise (x : CmdError) : s.EndsWith (some x) (.next (s.raise x))

section
variable {s : State} {i : Instr}

/-- A check that the command makes raises its error first. -/
theorem State.EndsWith.check {p : Prop} [Decidable p] {x : CmdError} {e : Option CmdError}
    {o : Host.Outcome State Fault Refusal} (h : s.EndsWith e o) :
    s.EndsWith (if p then some x else e) (if p then .next (s.raise x) else o) := by
  split
  · exact .raise x
  · exact h

/-- The commands that read the buffer have no immediate to be out of range. -/
theorem wellFormed_of_readsBuffer (h : i ∈ readsBuffer) : i.wellFormed = true := by
  revert i
  decide

/-- Only commands that read the buffer check an offset (R106). -/
theorem State.readsPastBuffer_of_not_readsBuffer (h : i ∉ readsBuffer) : s.readsPastBuffer i = false := by
  unfold State.readsPastBuffer
  split
  case h_4 => rfl
  all_goals exact absurd (by decide) h

/-- A command that makes no check has no error. -/
theorem State.firstError_of_unchecked (hwf : i.wellFormed = true) (hcrc : ¬(i = .h128c ∨ i = .crc64))
    (hbuf : i ∉ readsBuffer) : s.firstError i = none := by
  simp only [State.firstError, hwf, hcrc, hbuf, State.readsPastBuffer_of_not_readsBuffer hbuf, false_and, if_false,
    Bool.true_eq_false, Bool.false_eq_true]

/-- A command that reads the buffer and makes no CRC step has the errors of R197 and R198. -/
theorem State.firstError_of_readsBuffer (hcrc : i ≠ .h128c) (hbuf : i ∈ readsBuffer) :
    s.firstError i = if s.bufferCheckFails || s.readsPastBuffer i then some .invalidArgument else none := by
  have hcrc64 : i ≠ .crc64 := by rintro rfl; exact absurd hbuf (by decide)
  cases hb : s.bufferCheckFails <;>
    simp [State.firstError, wellFormed_of_readsBuffer hbuf, hcrc, hcrc64, hbuf, hb]

/-- H128C checks the capability before the buffer (R182, R203). -/
theorem State.firstError_h128c : s.firstError .h128c =
    if s.crcUnavailable then some .capabilityUnavailable else if s.bufferCheckFails then some .invalidArgument else none := by
  simp [State.firstError, Instr.wellFormed, readsBuffer, State.readsPastBuffer]

/-- CRC64 checks the capability alone (R117). -/
theorem State.firstError_crc64 :
    s.firstError .crc64 = if s.crcUnavailable then some .capabilityUnavailable else none := by
  simp [State.firstError, Instr.wellFormed, readsBuffer, State.readsPastBuffer]

/-- ROT32I checks its amount alone (R101). -/
theorem State.firstError_rot32i (sh : BitVec 6) :
    s.firstError (.rot32i sh) = if sh.toNat ≥ 32 then some .illegalCommand else none := by
  simp [State.firstError, Instr.wellFormed, readsBuffer, State.readsPastBuffer, Nat.lt_iff_add_one_le]

/-- A command that makes no check completes without an error. -/
theorem State.endsWith_unchecked (hwf : i.wellFormed = true) (hcrc : ¬(i = .h128c ∨ i = .crc64)) (hbuf : i ∉ readsBuffer)
    (r : ResultWords) : s.EndsWith (s.firstError i) (.next (s.complete r)) := by
  rw [State.firstError_of_unchecked hwf hcrc hbuf]
  exact .complete r

/-- A command that makes the checks of R197 and R198 alone. -/
theorem State.endsWith_bufferCommand (hcrc : i ≠ .h128c) (hbuf : i ∈ readsBuffer) {b : Bool}
    (hb : (s.bufferCheckFails || s.readsPastBuffer i) = b) (r : ResultWords) :
    s.EndsWith (s.firstError i) (if b then .next (s.raise .invalidArgument) else .next (s.complete r)) := by
  rw [State.firstError_of_readsBuffer hcrc hbuf, hb]
  exact .check (.complete r)

end

/-- Every command ends with its first error in the order of R203, or completes: one case per row of R68. -/
theorem exec_endsWith (s : State) (i : Instr) : s.EndsWith (s.firstError i) (exec i s) := by
  cases i with
  | h32 | h64 | h64s | h64ss | h128 | h128s | h256 =>
    exact State.endsWith_bufferCommand (by decide) (by decide) (Bool.or_false _) _
  | fetch32 | fetch64 | wmix => exact State.endsWith_bufferCommand (by decide) (by decide) rfl _
  | h128c =>
    rw [State.firstError_h128c]
    exact .check (.check (.complete _))
  | crc64 =>
    rw [State.firstError_crc64]
    exact .check (.complete _)
  | rot32i sh =>
    rw [State.firstError_rot32i]
    exact .check (.complete _)
  | rot64i sh => exact State.endsWith_unchecked rfl (by simp) (by simp [readsBuffer]) _
  | capq | rot64r | rot32r | shmix | fold | foldm | mur32 | fmix32 =>
    exact State.endsWith_unchecked rfl (by decide) (by decide) _

/-! ### What the first error leaves -/

/-- The error code that STATUS takes, 0 for a success (R24, R196). -/
def errorCode (e : Option CmdError) : Nat := e.elim 0 fun x => x.code.toNat

section
variable {s : State} {e : Option CmdError} {o : Host.Outcome State Fault Refusal}

/-- ECODE is the code of the error (R28, R200). -/
theorem State.EndsWith.ecode_eq (h : s.EndsWith e o) :
    ∃ t, o = .next t ∧ (statusEcode t.eng.status).toNat = errorCode e := by
  cases h with
  | complete r =>
    obtain ⟨_, _, _, _, _, -, -, -, hsucceeds⟩ := s.complete_succeeds r
    exact ⟨_, rfl, by rw [hsucceeds.ecode]; rfl⟩
  | raise x => exact ⟨_, rfl, (s.raise_fails x).ecode⟩

/-- An error leaves the error form with its code (R200). -/
theorem State.EndsWith.fails {x : CmdError} (h : s.EndsWith (some x) o) : ∃ t, o = .next t ∧ s.Fails t x.code.toNat := by
  cases h
  exact ⟨_, rfl, s.raise_fails x⟩

end

/-- A command whose first error is `x` ends in the error form with the code of `x`. -/
theorem exec_fails {s : State} {i : Instr} {x : CmdError} (h : s.firstError i = some x) :
    ∃ t, exec i s = .next t ∧ s.Fails t x.code.toNat :=
  (h ▸ exec_endsWith s i : s.EndsWith (some x) (exec i s)).fails

/-- The capability check fails when CRCSEL is NONE (R177). -/
theorem State.crcUnavailable_iff {s : State} : s.crcUnavailable = true ↔ capCrcsel s.eng.cap = 0 := decide_eq_true_iff

/-- The buffer check over the integers (R197). -/
theorem State.bufferCheckFails_iff {s : State} :
    s.bufferCheckFails = true ↔ s.eng.ptr.toNat + s.eng.len.toNat > 2 ^ s.cfg.aw := decide_eq_true_iff

/-- The offset check, command by command, over the integers (R198). -/
theorem State.readsPastBuffer_iff {s : State} {i : Instr} : s.readsPastBuffer i = true ↔
    (i = .fetch32 ∧ s.eng.x0.toNat + 4 > s.eng.len.toNat) ∨ (i = .fetch64 ∧ s.eng.x0.toNat + 8 > s.eng.len.toNat)
      ∨ (i = .wmix ∧ s.eng.x2.toNat + 32 > s.eng.len.toNat) := by
  cases i <;> simp [State.readsPastBuffer, State.offsetCheckFails]

/-- H128C and CRC64 make the capability check before every other that they make (R203). -/
theorem State.firstError_of_crcUnavailable {s : State} {i : Instr} (hi : i = .h128c ∨ i = .crc64)
    (h : s.crcUnavailable = true) : s.firstError i = some .capabilityUnavailable := by
  rcases hi with rfl | rfl
  · rw [State.firstError_h128c, if_pos h]
  · rw [State.firstError_crc64, if_pos h]

/-- No other command makes the capability check, and these two pass it under another CRCSEL (R201). -/
theorem State.firstError_ne_capabilityUnavailable {s : State} {i : Instr}
    (h : ¬((i = .h128c ∨ i = .crc64) ∧ s.crcUnavailable = true)) : s.firstError i ≠ some .capabilityUnavailable := by
  rw [State.firstError, if_neg h]
  split_ifs <;> simp

/-- Only CapabilityUnavailable has code 2 (R196). -/
theorem errorCode_eq_two_iff {e : Option CmdError} : errorCode e = 2 ↔ e = some .capabilityUnavailable := by
  rcases e with _ | x
  · decide
  · cases x <;> decide

/-- Settles O19: the first error is CapabilityUnavailable in the one case and another or none in the other. -/
theorem capabilityErrorExactlyWhenNone : Obligations.CapabilityErrorExactlyWhenNone := by
  intro s i
  refine ⟨fun hi hnone => ?raised, fun hother => ?notRaised⟩
  case raised => exact exec_fails (State.firstError_of_crcUnavailable hi (State.crcUnavailable_iff.mpr hnone))
  case notRaised =>
    obtain ⟨t, hexec, hecode⟩ := (exec_endsWith s i).ecode_eq
    refine ⟨t, hexec, ?_⟩
    rw [hecode, Ne, errorCode_eq_two_iff]
    apply State.firstError_ne_capabilityUnavailable
    rw [State.crcUnavailable_iff]
    tauto

/-- A buffer that does not fit is the first error of a command that reads it, past the capability check (R197, R203). -/
theorem State.firstError_of_bufferCheckFails {s : State} {i : Instr} (hi : i ∈ readsBuffer)
    (hcrc : i = .h128c → ¬ s.crcUnavailable = true) (h : s.bufferCheckFails = true) :
    s.firstError i = some .invalidArgument := by
  by_cases hc : i = .h128c
  · subst hc
    rw [State.firstError_h128c, if_neg (hcrc rfl), if_pos h]
  · rw [State.firstError_of_readsBuffer hc hi, h]
    rfl

/-- An offset past the buffer makes the command end with InvalidArgument, whether the buffer fits or not (R198). -/
theorem State.firstError_of_readsPastBuffer {s : State} {i : Instr} (h : s.readsPastBuffer i = true) :
    s.firstError i = some .invalidArgument := by
  have hi : i ∈ readsBuffer := by
    by_contra hi
    simp [State.readsPastBuffer_of_not_readsBuffer hi] at h
  have hc : i ≠ .h128c := by rintro rfl; exact absurd h (by simp [State.readsPastBuffer])
  rw [State.firstError_of_readsBuffer hc hi, h, Bool.or_true]
  rfl

/-- Settles O20: in each case the first error is InvalidArgument. -/
theorem badBufferOrOffsetIsInvalidArgument : Obligations.BadBufferOrOffsetIsInvalidArgument := by
  intro s i
  refine ⟨fun hi hcrc hptr => ?buffer, fun hoff => ?fetch32, fun hoff => ?fetch64, fun hoff => ?wmix⟩
  case buffer =>
    exact exec_fails (State.firstError_of_bufferCheckFails hi (fun hc => State.crcCheck_passes (hcrc hc))
      (State.bufferCheckFails_iff.mpr hptr))
  case fetch32 => exact exec_fails (State.firstError_of_readsPastBuffer (State.readsPastBuffer_iff.mpr (.inl ⟨rfl, hoff⟩)))
  case fetch64 =>
    exact exec_fails (State.firstError_of_readsPastBuffer (State.readsPastBuffer_iff.mpr (.inr (.inl ⟨rfl, hoff⟩))))
  case wmix =>
    exact exec_fails (State.firstError_of_readsPastBuffer (State.readsPastBuffer_iff.mpr (.inr (.inr ⟨rfl, hoff⟩))))

/-! ### The value written to CMD -/

/-- A value whose bits 63:14 are 0 has zeros in both zero fields (R66). -/
theorem zeroFields_of_shiftRight_14 {v : Word} (h : v >>> 14 = 0) : zeroField v = 0 ∧ highField v = 0 := by
  simp only [← BitVec.toNat_inj, BitVec.toNat_ushiftRight, Nat.shiftRight_eq_div_pow, BitVec.ofNat_eq_ofNat,
    BitVec.toNat_ofNat] at h
  constructor <;> apply BitVec.eq_of_toNat_eq <;>
    simp only [zeroField, highField, BitVec.extractLsb'_toNat, Nat.shiftRight_eq_div_pow, BitVec.ofNat_eq_ofNat,
      BitVec.toNat_ofNat] <;> omega

/-- Every opcode of R68 but those of ROT64I and ROT32I is that of a command without an immediate. -/
theorem exists_plain_of_opcode {opc : BitVec 8} (h : opc ∈ assignedOpcodes) (h64 : opc ≠ 0x20) (h32 : opc ≠ 0x22) :
    ∃ i : Instr, i.wellFormed = true ∧ opcode i = opc := by
  have htable : ∀ opc ∈ assignedOpcodes, opc ≠ 0x20 → opc ≠ 0x22 → ∃ p ∈ plainWords, opcode p.2 = opc := by decide
  obtain ⟨p, hp, hopc⟩ := htable opc h h64 h32
  exact ⟨p.2, (eq_hostValue_of_mem_plainWords hp).1, hopc⟩

/-- A value that no clause of R70 takes is the value of a well-formed command. -/
theorem exists_command_of_not_illegalValue {v : Word} (h : ¬ IllegalValue v) : ∃ i, decode v = .command i := by
  simp only [IllegalValue, not_or, not_and, not_not, ge_iff_le, not_le] at h
  obtain ⟨hbits, hopc, hsh, hamount⟩ := h
  obtain ⟨hzero, hhigh⟩ := zeroFields_of_shiftRight_14 hbits
  suffices ∃ i : Instr, i.wellFormed = true ∧ opcode i = opcField v ∧ immediate i = shField v by
    obtain ⟨i, hwf, hop, himm⟩ := this
    exact ⟨i, decode_eq_command_iff.mpr ⟨hwf, eq_hostValue_iff.mpr ⟨hop.symm, himm.symm, hzero, hhigh⟩⟩⟩
  by_cases h64 : opcField v = 0x20
  · exact ⟨.rot64i (shField v), rfl, h64.symm, rfl⟩
  by_cases h32 : opcField v = 0x22
  · exact ⟨.rot32i (shField v), decide_eq_true (Nat.le_of_lt_succ (hamount h32)), h32.symm, rfl⟩
  obtain ⟨i, hwf, hop⟩ := exists_plain_of_opcode hopc h64 h32
  refine ⟨i, hwf, hop, ?_⟩
  rw [immediate_eq_zero (hop ▸ h64) (hop ▸ h32)]
  by_contra hne
  exact h32 (hsh (Ne.symm hne) h64)

/-- A value that decodes to a command is the value of that well-formed command alone. -/
theorem eq_hostValue_iff_of_decode {v : Word} {i j : Instr} (h : decode v = .command i) (hj : j.wellFormed = true) :
    v = hostValue j ↔ i = j := by
  rw [← Decoded.command.injEq, ← h, decode_eq_command_iff, and_iff_right hj]

/-- The values of the commands that read the buffer (R54, R69). -/
theorem mem_readsBuffer_of_decode {v : Word} {i : Instr} (h : decode v = .command i) :
    v ∈ [0x10, 0x11, 0x12, 0x13, 0x14, 0x15, 0x16, 0x17, 0x27, 0x28, 0x29] ↔ i ∈ readsBuffer := by
  have hperm : [0x10, 0x11, 0x12, 0x13, 0x14, 0x15, 0x16, 0x17, 0x27, 0x28, 0x29].Perm (readsBuffer.map hostValue) := by
    decide
  rw [hperm.mem_iff, List.mem_map]
  constructor
  · rintro ⟨j, hj, hv⟩
    rwa [(eq_hostValue_iff_of_decode h (wellFormed_of_readsBuffer hj)).mp hv.symm]
  · intro hi
    exact ⟨i, hi, ((eq_hostValue_iff_of_decode h (wellFormed_of_readsBuffer hi)).mpr rfl).symm⟩

/-- The code of the first error of a well-formed command, each condition over the integers (R203). -/
theorem State.errorCode_firstError {s : State} {i : Instr} (hwf : i.wellFormed = true) : errorCode (s.firstError i) =
    if (i = .h128c ∨ i = .crc64) ∧ capCrcsel s.eng.cap = 0 then 2
    else if i ∈ readsBuffer ∧ s.eng.ptr.toNat + s.eng.len.toNat > 2 ^ s.cfg.aw then 1
    else if (i = .fetch32 ∧ s.eng.x0.toNat + 4 > s.eng.len.toNat) ∨ (i = .fetch64 ∧ s.eng.x0.toNat + 8 > s.eng.len.toNat)
        ∨ (i = .wmix ∧ s.eng.x2.toNat + 32 > s.eng.len.toNat) then 1
    else 0 := by
  rw [State.firstError, if_neg (by simp [hwf])]
  simp only [apply_ite errorCode, State.crcUnavailable_iff, State.bufferCheckFails_iff, State.readsPastBuffer_iff]
  rfl

/-- Settles O18: an illegal value is no command; a legal one is the value of a command, which ends with its first error. -/
theorem errorPriority : Obligations.ErrorPriority := by
  intro s v
  by_cases hillegal : IllegalValue v
  · obtain ⟨e, hdecode⟩ := decode_of_illegalValue hillegal
    exact ⟨_, State.issue_of_illegal hdecode s, fun _ => (s.raise_fails .illegalCommand).ecode,
      fun hlegal => absurd hillegal hlegal⟩
  · obtain ⟨i, hdecode⟩ := exists_command_of_not_illegalValue hillegal
    obtain ⟨t, hexec, hecode⟩ := (exec_endsWith s i).ecode_eq
    obtain ⟨hwf, -⟩ := decode_eq_command_iff.mp hdecode
    refine ⟨t, by rw [State.issue_of_command hdecode, hexec], fun h => absurd h hillegal, fun _ => ?_⟩
    have h128c : v = 0x17 ↔ i = .h128c := eq_hostValue_iff_of_decode (j := .h128c) hdecode rfl
    have crc64 : v = 0x2C ↔ i = .crc64 := eq_hostValue_iff_of_decode (j := .crc64) hdecode rfl
    have fetch32 : v = 0x28 ↔ i = .fetch32 := eq_hostValue_iff_of_decode (j := .fetch32) hdecode rfl
    have fetch64 : v = 0x29 ↔ i = .fetch64 := eq_hostValue_iff_of_decode (j := .fetch64) hdecode rfl
    have wmix : v = 0x27 ↔ i = .wmix := eq_hostValue_iff_of_decode (j := .wmix) hdecode rfl
    simp only [hecode, State.errorCode_firstError hwf, mem_readsBuffer_of_decode hdecode, h128c, crc64, fetch32, fetch64, wmix]

end Sys2Proof.Machine

/-!
SUPPORT. The reset event as a step, the fields of the latch, and the reset state (spec/70_reset_and_hazards.md R225 to R228,
spec/43_crc.md R176). The settled statements O13, O14 and O51.
-/

namespace Sys2Proof.Machine

/-! ### The reset event -/

/-- The reset event is accepted in every state, alone or cutting a write, whatever that write is; the reply alone tells the two
apart (R227; log 9). -/
theorem State.hostOp_of_isReset {op : HostOp} (hop : op.isReset = true) (s : State) :
    ∃ r, s.hostOp op = .next { s.resetEvent with reply := r } := by
  cases op with
  | reset => exact ⟨.none, rfl⟩
  | wrCut addr size v => exact ⟨.abandoned, rfl⟩
  | rd | wr | store | straps => simp [HostOp.isReset] at hop

/-- The reset event keeps the number of engines. -/
theorem State.resetEvent_engines_length (s : State) : s.resetEvent.engines.length = s.engines.length := by
  rw [State.resetEvent_engines, List.length_map]

/-- Settles O13: the step is the reset event, which maps every engine to the reset register file. -/
theorem resetClearsEveryEngine : Obligations.ResetClearsEveryEngine := by
  intro s op rest hop hq
  obtain ⟨r, hnext⟩ := State.hostOp_of_isReset hop { s with queue := rest }
  refine ⟨_, (step_cons hq).trans hnext, State.resetEvent_engines_length _, rfl, rfl, rfl, rfl, fun e he => ?_⟩
  obtain rfl : e = Engine.atReset (capOf s.pins) := (State.hostOp_next hnext).atReset hop e he
  exact ⟨rfl, rfl, rfl, rfl, rfl, rfl, rfl, rfl, rfl, rfl, rfl, rfl, rfl⟩

/-! ### The latch -/

/-- Settles O14: each field of the latch is the one it was packed from, HWCRC the effective capability (R226). -/
theorem latchFieldsFromStraps : Obligations.LatchFieldsFromStraps := by
  intro p
  have hhwcrc : capHwcrc (capOf p) = effectiveHwcrc p := capHwcrc_pack ..
  have hcrcsel : capCrcsel (capOf p) = resolveCrcsel p := capCrcsel_pack ..
  refine ⟨hhwcrc, capSwfb_pack .., capOvr_pack .., ?_, capZero_pack ..⟩
  rw [hcrcsel, hhwcrc]
  rfl

/-! ### The reset state -/

/-- With at least one engine, the foreground engine and those above it at reset are NENG engines, all alike (R10, R225). -/
theorem State.resetWith_engines {c : Config} (hc : 1 ≤ c.neng) (p : Straps) (m : Memory) :
    (State.resetWith c p m).engines = List.replicate c.neng (Engine.atReset (capOf p)) := by
  calc (State.resetWith c p m).engines
      = List.replicate (c.neng - 1 + 1) (Engine.atReset (capOf p)) := rfl
    _ = List.replicate c.neng (Engine.atReset (capOf p)) := by rw [Nat.sub_add_cancel hc]

/-- The reset state meets the invariant with every memory in canonical form inside the address space (R225, R228). -/
theorem State.Inv.resetWith {c : Config} (hc : 1 ≤ c.neng) (p : Straps) {m : Memory} (hwf : m.wf)
    (hbound : ∀ b ∈ m, b.1 < 2 ^ c.aw) : (State.resetWith c p m).Inv := by
  have hall : ∀ e ∈ (State.resetWith c p m).engines, e = Engine.atReset (capOf p) := fun e he =>
    List.eq_of_mem_replicate (State.resetWith_engines hc p m ▸ he)
  exact
    { memWf := hwf
      memBound := hbound
      count := by rw [State.resetWith_engines hc]; exact List.length_replicate
      legal := fun e he => hall e he ▸ Engine.legal_atReset p
      oneLatch := fun e he => by rw [hall e he]; rfl }

/-- Settles O51: a memory that lists nothing is in canonical form, and the default parameters have one engine. -/
theorem resetStateMeetsInvariant : Obligations.ResetStateMeetsInvariant := by
  have hreset : ∀ (c : Config) (p : Straps), 1 ≤ c.neng → (State.resetWith c p []).Inv := fun c p hc =>
    State.Inv.resetWith hc p ⟨.nil, nofun⟩ nofun
  exact ⟨hreset _ _ (by decide), hreset⟩

end Sys2Proof.Machine
